-- ==== Sys2Proof/Word.lean ====
section
/-! DEFINITION. The word types of DHTDEC's ports and registers (spec/30_encoding.md R70 to R75). -/

namespace Sys2Proof

/-- The width of the `PIN` field of the formats HC and CW (R71, R72). An instance's own `PIN_W` (R8) is at most this (log 16). -/
abbrev pinFieldW : Nat := 8

/-- The width of the fields `ARG` and `ELAPSED` of the formats CW and RW (R72, R73). An instance's own `DUR_W` (R8) is at most this
(log 16). -/
abbrev durFieldW : Nat := 20

/-- A word of one of the ports HCMD, RESULT, CCMD, CRSP (R70). -/
abbrev Word := BitVec 32

/-- A platform GPIO number (R25, R53) as the words carry it, zero-extended to their field (R71), passed through uninterpreted. -/
abbrev Pin := BitVec pinFieldW

/-- A time operand or a measured duration as the words carry it, zero-extended to their field (R72, R73). -/
abbrev Dur := BitVec durFieldW

/-- The 40-bit frame `{HH, HL, TH, TL, CK}` (R26, R74). -/
abbrev Frame := BitVec 40

end Sys2Proof
end

