-- ==== Sys2Proof/Config.lean ====
section
/-! DEFINITION. The configuration of a DHTDEC instance: the per-model record of R7, the global parameters of R8 and the constraints of R9 (spec/00_scope.md). -/

namespace Sys2Proof

/-- The supported sensor models, exactly three (R1); codes in R76. -/
inductive SensorModel where
  | dht11 | dht22 | am2302
deriving DecidableEq, Repr

/-- `CONV_SEL`: which conversion formula a model uses (R7, R156, R157). -/
inductive ConvSel where
  | whole | tenths
deriving DecidableEq, Repr

/-- `FLOAT_FMT`: the format of the float registers (R8, R160, R166). -/
inductive FloatFmt where
  | binary32 | binary64
deriving DecidableEq, Repr

/-- One row of the constant table `CFG[m]` (R7). -/
structure ModelRecord where
  startHoldMs    : Dur
  bitThresholdUs : Dur
  convSel        : ConvSel
deriving DecidableEq, Repr

/-- `CFG` and the global parameters (R7, R8): constants of the instance (R37, R60). -/
structure Config where
  dht11         : ModelRecord
  dht22         : ModelRecord
  am2302        : ModelRecord
  tIdleHoldUs   : Dur
  tSettleUs     : Dur
  edgeTimeoutUs : Dur
  attemptCap    : BitVec 8
  retryDelayMs  : Dur
  dht11HFrac    : Bool
  dht11TSign    : Bool
  tieIsOne      : Bool
  floatFmt      : FloatFmt
  /-- `PIN_W`: how wide a pin number is (R25, R53). -/
  pinW          : Nat
  /-- `DUR_W`: how wide a duration is (R51, R72, R73, R139). -/
  durW          : Nat
deriving DecidableEq, Repr

/-- `CFG[m]` (R7). -/
def Config.record (c : Config) (m : SensorModel) : ModelRecord :=
  match m with
  | .dht11 => c.dht11
  | .dht22 => c.dht22
  | .am2302 => c.am2302

/-- The defaults of R7 and R8. -/
def Config.default : Config where
  dht11 := { startHoldMs := 18, bitThresholdUs := 50, convSel := .whole }
  dht22 := { startHoldMs := 18, bitThresholdUs := 50, convSel := .tenths }
  am2302 := { startHoldMs := 18, bitThresholdUs := 50, convSel := .tenths }
  tIdleHoldUs := 1000
  tSettleUs := 20
  edgeTimeoutUs := 300
  attemptCap := 5
  retryDelayMs := 2000
  dht11HFrac := false
  dht11TSign := false
  tieIsOne := true
  floatFmt := .binary32
  pinW := 8
  durW := 20

/-- `0 < BIT_THRESHOLD_US[m] < EDGE_TIMEOUT_US` (R9) for one record. -/
def ModelRecord.thresholdOk (r : ModelRecord) (edgeTimeoutUs : Dur) : Bool :=
  decide (0 < r.bitThresholdUs.toNat) && decide (r.bitThresholdUs.toNat < edgeTimeoutUs.toNat)

/-- Whether a pin number is one of the instance's `PIN_W`-bit numbers (R25, R53). -/
def Config.pinFits (c : Config) (p : Pin) : Bool := decide (p.toNat < 2 ^ c.pinW)

/-- Whether a duration is one of the instance's `DUR_W`-bit numbers (R51, R139). -/
def Config.durFits (c : Config) (d : Dur) : Bool := decide (d.toNat < 2 ^ c.durW)

/-- The widths fit the fields of the word formats (R71 to R73: no layout is given for wider ones, N6; log 16), and every time operand fits `DUR_W`
(R9: "every time operand fits its 20-bit field"; the thresholds lie below `EDGE_TIMEOUT_US`). -/
def Config.widthsOk (c : Config) : Bool :=
  [ decide (c.pinW ≤ pinFieldW), decide (c.durW ≤ durFieldW),
    c.durFits c.dht11.startHoldMs, c.durFits c.dht22.startHoldMs, c.durFits c.am2302.startHoldMs,
    c.durFits c.tIdleHoldUs, c.durFits c.tSettleUs, c.durFits c.edgeTimeoutUs, c.durFits c.retryDelayMs ].all id

/-- The constraints of R9. `EDGE_TIMEOUT_US >= 1` (R8) follows from the threshold's bounds. `CONV_SEL` is fixed by the source (R7; log 25). -/
def Config.wf (c : Config) : Bool :=
  [ decide (18 ≤ c.dht11.startHoldMs.toNat),
    decide (1 ≤ c.dht22.startHoldMs.toNat),
    decide (1 ≤ c.am2302.startHoldMs.toNat),
    decide (c.dht22 = c.am2302),
    decide (1 ≤ c.attemptCap.toNat),
    c.dht11.thresholdOk c.edgeTimeoutUs,
    c.dht22.thresholdOk c.edgeTimeoutUs,
    c.am2302.thresholdOk c.edgeTimeoutUs,
    decide (c.dht11.convSel = .whole),
    decide (c.dht22.convSel = .tenths),
    c.widthsOk ].all id

end Sys2Proof
end

