-- ==== Sys2Proof/Syntax.lean ====
section
/-! DEFINITION. The operations of DHTDEC, one constructor of `Instr` per row of spec/opcode_table.json (R85), and the names their operands range over. -/

namespace Sys2Proof

/-- A logic level of the line (R10, R80): 0 is low, 1 is high. -/
inductive Level where
  | low | high
deriving DecidableEq, Repr

/-- The direction of a pin (R80): 0 is Input, 1 is Output. -/
inductive Direction where
  | input | output
deriving DecidableEq, Repr

/-- `ReadAttemptResult` (R32, R78): the codes 0 to 3 of `ATT_RES`, `LAST_KIND` and `RS.KIND`. -/
inductive AttRes where
  | success | timeout | checksumMismatch | implausibleValue
deriving DecidableEq, Repr

/-- The sequencer states (R21, R23), codes 0 to 18 in this order. -/
inductive SeqState where
  | idle
  | attStart
  | hsDirOut | hsDriveHigh | hsIdleHold | hsDriveLow | hsLowHold | hsRelease | hsSettle
  | capLead | capAckLow | capAckHigh | capBitLow | capBitHigh
  | check | convert | gate
  | attDone | retryDelay
deriving DecidableEq, Repr

/-- Where a word stands: the four ports of R70, and the `STATE` register for the 5-bit format USTATE (R85). -/
inductive Port where
  | hcmd | result | ccmd | crsp | ustate
deriving DecidableEq, Repr

/-- One segment of the EdgeTrace: `(level, duration in microseconds)` (R51). -/
structure Segment where
  level    : Level
  duration : Dur
deriving DecidableEq, Repr

/-- What the collaborator can answer (R79), as a `respond` step sees it. -/
inductive Response where
  | ack
  | edge (level : Level) (elapsed : Dur)
  | timeout
deriving DecidableEq, Repr

/-- Every operation of the opcode map (R85), one constructor per row of spec/opcode_table.json. -/
inductive Instr where
  -- HC: the host command (R71, R100)
  | read (model : SensorModel) (pin : Pin)
  -- RS: the published results (R75, R102, R103)
  | resultReading
  | resultReadError (kind : AttRes) (attemptsMade : BitVec 8)
  -- CW: the collaborator commands (R72, R118 to R121, R130)
  | setDir (pin : Pin) (dir : Direction)
  | write (pin : Pin) (level : Level)
  | waitEdge (pin : Pin) (timeoutUs : Dur)
  | sleepUs (n : Dur)
  | sleepMs (n : Dur)
  -- RW: the responses (R73, R122, R132, R133)
  | ack
  | edge (level : Level) (elapsed : Dur)
  | timeout
  -- USTATE: the micro-operations (R23)
  | idle
  | attStart
  | hsDirOut | hsDriveHigh | hsIdleHold | hsDriveLow | hsLowHold | hsRelease | hsSettle
  | capLead | capAckLow | capAckHigh | capBitLow | capBitHigh
  | check | convert | gate
  | attDone | retryDelay
deriving DecidableEq, Repr

/-- The response as a row of the opcode map. -/
def Response.instr (r : Response) : Instr :=
  match r with
  | .ack => .ack
  | .edge l d => .edge l d
  | .timeout => .timeout

end Sys2Proof
end

