-- ==== Sys2Proof/WellFormed.lean ====
section
/-! DEFINITION. Which terms of `Instr` spell an operation the spec gives (spec/40_host_interface.md R103), and which of them an instance of given widths has (spec/00_scope.md R8). The other operand ranges hold by type. -/

namespace Sys2Proof

/-- `RS.KIND` of a `READ_ERROR` is 1, 2 or 3, never 0 (R103). -/
def readErrorKindOk (kind : AttRes) : Bool :=
  decide (kind ≠ .success)

/-- `ATTEMPTS_MADE = ATTEMPT_CAP` (R103) and `ATTEMPT_CAP >= 1` (R9), so it is never 0. -/
def readErrorAttemptsOk (attemptsMade : BitVec 8) : Bool :=
  decide (attemptsMade ≠ 0)

/-- The operations whose operands the spec allows. -/
def Instr.wf (i : Instr) : Bool :=
  match i with
  | .resultReadError kind n => readErrorKindOk kind && readErrorAttemptsOk n
  | .read _ _ | .resultReading
  | .setDir _ _ | .write _ _ | .waitEdge _ _ | .sleepUs _ | .sleepMs _
  | .ack | .edge _ _ | .timeout
  | .idle | .attStart
  | .hsDirOut | .hsDriveHigh | .hsIdleHold | .hsDriveLow | .hsLowHold | .hsRelease | .hsSettle
  | .capLead | .capAckLow | .capAckHigh | .capBitLow | .capBitHigh
  | .check | .convert | .gate | .attDone | .retryDelay => true

/-- Whether the operation's pin number and duration are of the instance's widths `PIN_W` and `DUR_W` (R8, R25, R51, R53). -/
def Instr.fits (c : Config) (i : Instr) : Bool :=
  match i with
  | .read _ p | .setDir p _ | .write p _ => c.pinFits p
  | .waitEdge p t => c.pinFits p && c.durFits t
  | .sleepUs n | .sleepMs n => c.durFits n
  | .edge _ d => c.durFits d
  | .resultReading | .resultReadError _ _ | .ack | .timeout
  | .idle | .attStart
  | .hsDirOut | .hsDriveHigh | .hsIdleHold | .hsDriveLow | .hsLowHold | .hsRelease | .hsSettle
  | .capLead | .capAckLow | .capAckHigh | .capBitLow | .capBitHigh
  | .check | .convert | .gate | .attDone | .retryDelay => true

end Sys2Proof
end

