-- ==== Sys2Proof/Decode.lean ====
section
/-! DEFINITION. The decoder of every word format, one port each (R71 to R80, R85, R86), total and rejecting by name, and the encoder written from the same tables. -/

namespace Sys2Proof

/-- Why a word spells no operation of its port (R86). -/
inductive DecodeError where
  /-- `HC.OP` is not 0x1 (R86 (a)). -/
  | hcOpcode
  /-- One of `HC[27:10]` is not 0 (R86 (a)). -/
  | hcReservedBits
  /-- `HC.MODEL` is 3 (R86 (a)). -/
  | hcReservedModel
  /-- `RS.VALID` is 0: no result (R75). -/
  | rsNotValid
  /-- One of `RS[29:10]` is not 0, or a `READING` has a `KIND` or `ATTEMPTS_MADE` other than 0 (R75). -/
  | rsReservedBits
  /-- `CW.OP` is 0x0 or 0x6..0xF (R77, R86 (b)). -/
  | cwOpcode
  /-- A must-be-zero bit of `CW` is set (R72, R86 (b)). -/
  | cwReservedBits
  /-- `RW.KIND` is 3 (R79, R86 (c)). -/
  | rwReservedKind
  /-- A must-be-zero bit of `RW` is set (R73, R86 (c)). -/
  | rwReservedBits
  /-- A `STATE` code 19..31, or bits above the 5-bit code (R21, R86 (d)). -/
  | ustateCode
  /-- A pin number or a duration that does not fit the instance's `PIN_W` or `DUR_W` (R8): the word is not the zero extension of one (R71, R72;
  log 16). -/
  | widthExceeded
deriving DecidableEq, Repr

/-! ## Codes -/

/-- R76. -/
def modelCode (m : SensorModel) : BitVec 2 :=
  match m with
  | .dht11 => 0
  | .dht22 => 1
  | .am2302 => 2

/-- R76: code 3 is reserved. -/
def modelOfCode (c : BitVec 2) : Option SensorModel :=
  if c = 0 then some .dht11 else if c = 1 then some .dht22 else if c = 2 then some .am2302 else none

/-- R80. -/
def levelBit (l : Level) : BitVec 1 :=
  match l with
  | .low => 0
  | .high => 1

/-- R80. -/
def levelOfBit (b : BitVec 1) : Level :=
  if b = 0 then .low else .high

/-- R80. -/
def dirBit (d : Direction) : BitVec 1 :=
  match d with
  | .input => 0
  | .output => 1

/-- R80. -/
def dirOfBit (b : BitVec 1) : Direction :=
  if b = 0 then .input else .output

/-- R78. -/
def attResCode (r : AttRes) : BitVec 2 :=
  match r with
  | .success => 0
  | .timeout => 1
  | .checksumMismatch => 2
  | .implausibleValue => 3

/-- R78. -/
def attResOfCode (c : BitVec 2) : AttRes :=
  if c = 0 then .success else if c = 1 then .timeout else if c = 2 then .checksumMismatch else .implausibleValue

/-- R23: the code of a sequencer state. -/
def stateCode (q : SeqState) : BitVec 5 :=
  match q with
  | .idle => 0
  | .attStart => 1
  | .hsDirOut => 2
  | .hsDriveHigh => 3
  | .hsIdleHold => 4
  | .hsDriveLow => 5
  | .hsLowHold => 6
  | .hsRelease => 7
  | .hsSettle => 8
  | .capLead => 9
  | .capAckLow => 10
  | .capAckHigh => 11
  | .capBitLow => 12
  | .capBitHigh => 13
  | .check => 14
  | .convert => 15
  | .gate => 16
  | .attDone => 17
  | .retryDelay => 18

/-- The micro-operation a state names: one per state (R21, R85). -/
def microOp (q : SeqState) : Instr :=
  match q with
  | .idle => .idle
  | .attStart => .attStart
  | .hsDirOut => .hsDirOut
  | .hsDriveHigh => .hsDriveHigh
  | .hsIdleHold => .hsIdleHold
  | .hsDriveLow => .hsDriveLow
  | .hsLowHold => .hsLowHold
  | .hsRelease => .hsRelease
  | .hsSettle => .hsSettle
  | .capLead => .capLead
  | .capAckLow => .capAckLow
  | .capAckHigh => .capAckHigh
  | .capBitLow => .capBitLow
  | .capBitHigh => .capBitHigh
  | .check => .check
  | .convert => .convert
  | .gate => .gate
  | .attDone => .attDone
  | .retryDelay => .retryDelay

/-- The sequencer states in code order (R23). -/
def allStates : List SeqState :=
  [.idle, .attStart, .hsDirOut, .hsDriveHigh, .hsIdleHold, .hsDriveLow, .hsLowHold, .hsRelease, .hsSettle,
   .capLead, .capAckLow, .capAckHigh, .capBitLow, .capBitHigh, .check, .convert, .gate, .attDone, .retryDelay]

/-! ## Decoding -/

/-- The bit slice `v[hi:lo]` of R10. -/
abbrev bits {n : Nat} (v : BitVec n) (hi lo : Nat) : BitVec (hi - lo + 1) :=
  v.extractLsb hi lo

/-- Format HC (R71, R86 (a)). -/
def decodeHC (w : Word) : Except DecodeError Instr :=
  if bits w 31 28 ≠ 1 then .error .hcOpcode
  else if bits w 27 10 ≠ 0 then .error .hcReservedBits
  else match modelOfCode (bits w 9 8) with
    | none => .error .hcReservedModel
    | some m => .ok (.read m (bits w 7 0))

/-- Format RS (R75, R85: a decoder tests `VALID`, `TAG` and the must-be-zero bits and nothing else; log 26). -/
def decodeRS (w : Word) : Except DecodeError Instr :=
  if bits w 31 31 = 0 then .error .rsNotValid
  else if bits w 29 10 ≠ 0 then .error .rsReservedBits
  else if bits w 30 30 ≠ 0 then .ok (.resultReadError (attResOfCode (bits w 9 8)) (bits w 7 0))
  else if bits w 9 0 ≠ 0 then .error .rsReservedBits
  else .ok .resultReading

/-- Format CW (R72, R77, R86 (b)). -/
def decodeCW (w : Word) : Except DecodeError Instr :=
  if bits w 31 28 = 1 then
    if bits w 19 1 ≠ 0 then .error .cwReservedBits else .ok (.setDir (bits w 27 20) (dirOfBit (bits w 0 0)))
  else if bits w 31 28 = 2 then
    if bits w 19 1 ≠ 0 then .error .cwReservedBits else .ok (.write (bits w 27 20) (levelOfBit (bits w 0 0)))
  else if bits w 31 28 = 3 then .ok (.waitEdge (bits w 27 20) (bits w 19 0))
  else if bits w 31 28 = 4 then
    if bits w 27 20 ≠ 0 then .error .cwReservedBits else .ok (.sleepUs (bits w 19 0))
  else if bits w 31 28 = 5 then
    if bits w 27 20 ≠ 0 then .error .cwReservedBits else .ok (.sleepMs (bits w 19 0))
  else .error .cwOpcode

/-- Format RW (R73, R79, R86 (c)). -/
def decodeResponse (w : Word) : Except DecodeError Response :=
  if bits w 31 30 = 3 then .error .rwReservedKind
  else if bits w 29 21 ≠ 0 then .error .rwReservedBits
  else if bits w 31 30 = 1 then .ok (.edge (levelOfBit (bits w 20 20)) (bits w 19 0))
  else if bits w 20 0 ≠ 0 then .error .rwReservedBits
  else if bits w 31 30 = 0 then .ok .ack
  else .ok .timeout

/-- Format RW as rows of the opcode map. -/
def decodeRW (w : Word) : Except DecodeError Instr :=
  match decodeResponse w with
  | .error e => .error e
  | .ok r => .ok r.instr

/-- Format USTATE: the 5-bit `STATE` code (R23, R85); codes 19..31 do not exist (R86 (d)). -/
def decodeUState (code : BitVec 5) : Except DecodeError Instr :=
  match allStates.find? (fun q => decide (stateCode q = code)) with
  | some q => .ok (microOp q)
  | none => .error .ustateCode

/-- The decoder: a word has a meaning only on its port (R70, R85). -/
def decode (p : Port) (w : Word) : Except DecodeError Instr :=
  match p with
  | .hcmd => decodeHC w
  | .result => decodeRS w
  | .ccmd => decodeCW w
  | .crsp => decodeRW w
  | .ustate => if bits w 31 5 ≠ 0 then .error .ustateCode else decodeUState (bits w 4 0)

/-- The decoder of an instance: the word is of its format and its operands are of the instance's widths (R8, R25, R51; log 16). -/
def decodeFor (c : Config) (p : Port) (w : Word) : Except DecodeError Instr :=
  match decode p w with
  | .error e => .error e
  | .ok i => if i.fits c then .ok i else .error .widthExceeded

/-- `decodeFor` on CRSP, as a `respond` step sees the response. -/
def decodeResponseFor (c : Config) (w : Word) : Except DecodeError Response :=
  match decodeResponse w with
  | .error e => .error e
  | .ok r => if r.instr.fits c then .ok r else .error .widthExceeded

/-! ## Encoding -/

/-- The port an operation's word stands on (R85). -/
def portOf (i : Instr) : Port :=
  match i with
  | .read _ _ => .hcmd
  | .resultReading | .resultReadError _ _ => .result
  | .setDir _ _ | .write _ _ | .waitEdge _ _ | .sleepUs _ | .sleepMs _ => .ccmd
  | .ack | .edge _ _ | .timeout => .crsp
  | .idle | .attStart
  | .hsDirOut | .hsDriveHigh | .hsIdleHold | .hsDriveLow | .hsLowHold | .hsRelease | .hsSettle
  | .capLead | .capAckLow | .capAckHigh | .capBitLow | .capBitHigh
  | .check | .convert | .gate | .attDone | .retryDelay => .ustate

/-- `HC = {OP, 18'b0, MODEL, PIN}` (R71). -/
def hcWord (m : SensorModel) (p : Pin) : Word := 1#4 ++ 0#18 ++ modelCode m ++ p

/-- `RS = {VALID, TAG, 20'b0, KIND, ATTEMPTS_MADE}` (R75). -/
def rsWord (valid tag : BitVec 1) (kind : BitVec 2) (attemptsMade : BitVec 8) : Word :=
  valid ++ tag ++ 0#20 ++ kind ++ attemptsMade

/-- `CW = {OP, PIN, ARG}` (R72). -/
def cwWord (op : BitVec 4) (pin : Pin) (arg : Dur) : Word := op ++ pin ++ arg

/-- `RW = {KIND, 9'b0, LEVEL, ELAPSED}` (R73). -/
def rwWord (kind : BitVec 2) (level : BitVec 1) (elapsed : Dur) : Word := kind ++ 0#9 ++ level ++ elapsed

/-- A 5-bit `STATE` code standing alone in a word. -/
def ustateWord (q : SeqState) : Word := 0#27 ++ stateCode q

/-- The word of an operation on its port, from the tables of R71 to R80 and R23. -/
def encode (i : Instr) : Word :=
  match i with
  | .read m p => hcWord m p
  | .resultReading => rsWord 1 0 0 0
  | .resultReadError k n => rsWord 1 1 (attResCode k) n
  | .setDir p d => cwWord 1 p (0#19 ++ dirBit d)
  | .write p l => cwWord 2 p (0#19 ++ levelBit l)
  | .waitEdge p t => cwWord 3 p t
  | .sleepUs n => cwWord 4 0 n
  | .sleepMs n => cwWord 5 0 n
  | .ack => rwWord 0 0 0
  | .edge l d => rwWord 1 (levelBit l) d
  | .timeout => rwWord 2 0 0
  | .idle => ustateWord .idle
  | .attStart => ustateWord .attStart
  | .hsDirOut => ustateWord .hsDirOut
  | .hsDriveHigh => ustateWord .hsDriveHigh
  | .hsIdleHold => ustateWord .hsIdleHold
  | .hsDriveLow => ustateWord .hsDriveLow
  | .hsLowHold => ustateWord .hsLowHold
  | .hsRelease => ustateWord .hsRelease
  | .hsSettle => ustateWord .hsSettle
  | .capLead => ustateWord .capLead
  | .capAckLow => ustateWord .capAckLow
  | .capAckHigh => ustateWord .capAckHigh
  | .capBitLow => ustateWord .capBitLow
  | .capBitHigh => ustateWord .capBitHigh
  | .check => ustateWord .check
  | .convert => ustateWord .convert
  | .gate => ustateWord .gate
  | .attDone => ustateWord .attDone
  | .retryDelay => ustateWord .retryDelay

/-- The response word of a response (R73). -/
def responseWord (r : Response) : Word := encode r.instr

/-! ## The table's numbering -/

/-- A decoding without its error. -/
def decoded (r : Except DecodeError Instr) : Option Instr :=
  match r with
  | .ok i => some i
  | .error _ => none

/-- The operation whose bits, in `nbits` bits as spec/opcode_table.json numbers them, are `w`. A 32-bit number does not say which
port it stands on and some spell an operation on two of them; the ports are tried in the order HCMD, CCMD, CRSP, RESULT
(log 13). USTATE codes come in 5 bits, or 8 with the upper three 0. -/
def decodeTableWord (nbits w : Nat) : Option Instr :=
  if nbits = 32 then
    if w < 2 ^ 32 then
      (decoded (decode .hcmd (BitVec.ofNat 32 w))).orElse fun _ =>
      (decoded (decode .ccmd (BitVec.ofNat 32 w))).orElse fun _ =>
      (decoded (decode .crsp (BitVec.ofNat 32 w))).orElse fun _ =>
      decoded (decode .result (BitVec.ofNat 32 w))
    else none
  else if nbits = 5 || nbits = 8 then
    if w < 2 ^ 5 then decoded (decodeUState (BitVec.ofNat 5 w)) else none
  else none

end Sys2Proof
end

