-- ==== Sys2Proof/Machine/State.lean ====
section
/-! DEFINITION. The state of DHTDEC (spec/10_state.md R20 to R44), the reasons a step can stop, and the state after reset (R42, R215). -/

namespace Sys2Proof.Machine

/-- A float register or port, as wide as `FLOAT_FMT` (R31, R36, R84). -/
inductive FloatVal where
  | binary32 (bits : BitVec 32)
  | binary64 (bits : BitVec 64)
deriving DecidableEq, Repr

/-- +0 in a format. -/
def FloatVal.zero (f : FloatFmt) : FloatVal :=
  match f with
  | .binary32 => .binary32 0
  | .binary64 => .binary64 0

/-- `LINE_DIR` and `LINE_OUT` of one pin (R39, R52); `none` is the rule's value "unknown". -/
structure Line where
  dir : Option Direction
  out : Option Level
deriving DecidableEq, Repr

/-- What a pin that the line space does not list reads as (R42: unknown after reset). -/
def Line.unknown : Line := { dir := none, out := none }

/-- Where the spec leaves the block stuck (93_implementation_defined.md U4): no step is enabled, the read never completes. -/
inductive Fault where
  /-- Raised by the `respond` step of a command state, and by `ACK`, `EDGE` and `TIMEOUT`, when the response is not of a kind the state
  expects (R86 (c), U4). Safe: the spec gives the block no step here. -/
  | unexpectedResponse
  /-- Raised by the `respond` step of a command state, and by `EDGE`, when the response word has `KIND = 3` or a must-be-zero bit set
  (R86 (c), U4), or a duration that does not fit `DUR_W` (log 16).
  Safe: the spec gives the block no step here. -/
  | malformedResponse
deriving DecidableEq, Repr

/-- Where the spec gives no transition, so that a model refuses. -/
inductive Refusal where
  /-- An operation that has no meaning yet, by its mnemonic. Safe. -/
  | notModelled (mnemonic : String)
  /-- Raised by `step` when the configuration breaks R9 (U14: a model does not run it). Safe. -/
  | illFormedConfiguration
  /-- Raised by `IDLE` when the host word on offer spells no command (R86 (a), R101 (a), U3), and by `IDLE` and `READ`
  when its pin number does not fit `PIN_W` (log 16). Safe: nothing is consumed or changed. -/
  | hostWordNotACommand
  /-- Raised by `READ` when `STATE` is not `IDLE` (R101 (b), U2). Safe: HCMD is not ready. -/
  | hostPortNotReady
  /-- Raised by `ACK`, `EDGE` and `TIMEOUT` when `PEND = 0` (R70): CRSP is not ready. Safe. -/
  | responsePortNotReady
  /-- Raised by `SET_DIR`, `WRITE`, `WAIT_EDGE`, `SLEEP_US`, `SLEEP_MS` when the word is not the one the current command state issues with
  `PEND = 0` (R12, R23). Safe: DHTDEC issues no other word. -/
  | commandNotIssued
  /-- Raised by `WRITE` when the pin is in Input mode (U10: the collaborator gives it no meaning). Safe. -/
  | writeInInputMode
  /-- Raised by `RESULT.READING` and `RESULT.READ_ERROR` when `ATT_DONE` does not publish that word now (R102, R103, R175). Safe. -/
  | resultNotPublished
deriving DecidableEq, Repr

/-- Everything R20 lists, the configuration (R37), the ghost `TRACE` (R38), the line (R39, R52) and the ports (R70). -/
structure State where
  /-- `STATE` (R21). -/
  state    : SeqState
  /-- `PEND` (R22). -/
  pend     : Bool
  /-- `MODEL` (R25). -/
  model    : SensorModel
  /-- `PIN`, the instance's `PIN_W` bits zero-extended to the words' field (R25). -/
  pin      : Pin
  /-- `SR` (R26). -/
  sr       : Frame
  /-- `BITCNT` (R27). -/
  bitcnt   : BitVec 6
  /-- `H10` (R29). -/
  h10      : BitVec 16
  /-- `T_NEG` (R30). -/
  tNeg     : BitVec 1
  /-- `T_MAG` (R30). -/
  tMag     : BitVec 15
  /-- `HUM_F` (R31). -/
  humF     : FloatVal
  /-- `TEMP_F` (R31). -/
  tempF    : FloatVal
  /-- `ATT_RES` (R32). -/
  attRes   : AttRes
  /-- `ATTEMPTS` (R34). -/
  attempts : BitVec 8
  /-- `LAST_KIND` (R35). -/
  lastKind : AttRes
  /-- `RS` (R36, R75). -/
  rs       : BitVec 32
  /-- `RES_HUM` (R36); `none` is "no value". -/
  resHum   : Option FloatVal
  /-- `RES_TEMP` (R36); `none` is "no value". -/
  resTemp  : Option FloatVal
  /-- `CFG` and the global parameters (R7, R8, R37), written by nothing. -/
  cfg      : Config
  /-- The ghost `TRACE` (R38), read by nothing. -/
  trace    : List Segment
  /-- The line space (R52): pin number and line, one canonical form (`Lines.wf`), read by no micro-operation. -/
  lines    : List (Nat × Line)
  /-- The words the host will offer on HCMD, in order (R70, R88; log 3). -/
  hcmd     : List (BitVec 32)
  /-- The words the collaborator will answer on CRSP, in order (R51, R70, R88; log 3). -/
  crsp     : List (BitVec 32)
  /-- The command words issued on CCMD so far, oldest first (R70; log 4), read by nothing. -/
  ccmd     : List (BitVec 32)
deriving DecidableEq, Repr

/-- The state after reset of an instance with configuration `c` (R42, R215). The registers R42 leaves unspecified hold the
values of log 1. -/
def State.resetWith (c : Config) : State where
  state := .idle
  pend := false
  model := .dht11
  pin := 0
  sr := 0
  bitcnt := 0
  h10 := 0
  tNeg := 0
  tMag := 0
  humF := FloatVal.zero c.floatFmt
  tempF := FloatVal.zero c.floatFmt
  attRes := .success
  attempts := 0
  lastKind := .timeout
  rs := 0
  resHum := none
  resTemp := none
  cfg := c
  trace := []
  lines := []
  hcmd := []
  crsp := []
  ccmd := []

/-- The state after reset with the default configuration (R7, R8, R42, R215). -/
def State.reset : State := State.resetWith Config.default

end Sys2Proof.Machine
end

