-- ==== Sys2Proof/Machine/Ops.lean ====
section
/-! DEFINITION. The shared operations: the line space (spec/20_memory.md R52), the step kinds of spec/00_scope.md R12, `attempt_fail` and the retry (spec/60_exceptions.md R194, R198), and the publishing of results (spec/40_host_interface.md R100 to R103). -/

namespace Sys2Proof.Machine

/-! ## The line space: a list of (pin, line), pins strictly rising, no entry equal to `Line.unknown` -/

/-- The line of a pin; an unlisted pin is unknown. -/
def Lines.read (l : List (Nat × Line)) (p : Nat) : Line :=
  match l with
  | [] => Line.unknown
  | (q, v) :: rest => if q = p then v else Lines.read rest p

/-- Write a pin's line, keeping the canonical form: writing `Line.unknown` removes the entry. -/
def Lines.write (l : List (Nat × Line)) (p : Nat) (v : Line) : List (Nat × Line) :=
  match l with
  | [] => if v = Line.unknown then [] else [(p, v)]
  | (q, u) :: rest =>
    if p < q then (if v = Line.unknown then (q, u) :: rest else (p, v) :: (q, u) :: rest)
    else if p = q then (if v = Line.unknown then rest else (p, v) :: rest)
    else (q, u) :: Lines.write rest p v

/-- Every pin of the list lies in `lo .. 255`, the pins rise strictly and no entry is `Line.unknown`. -/
def Lines.wfFrom (lo : Nat) (l : List (Nat × Line)) : Bool :=
  match l with
  | [] => true
  | (q, v) :: rest => decide (lo ≤ q) && decide (q < 2 ^ pinFieldW) && decide (v ≠ Line.unknown) && Lines.wfFrom (q + 1) rest

/-- The canonical form of the line space. -/
def Lines.wf (l : List (Nat × Line)) : Bool := Lines.wfFrom 0 l

/-- `LINE_DIR[p]` and `LINE_OUT[p]` (R39, R52). -/
def State.line (s : State) (p : Pin) : Line := Lines.read s.lines p.toNat

/-- Write both for a pin. -/
def State.setLine (s : State) (p : Pin) (v : Line) : State := { s with lines := Lines.write s.lines p.toNat v }

/-! ## Issuing a command (step kind `issue`, R12) -/

/-- `issue(W); PEND <- 1` (R11, R12): the word goes out on CCMD. -/
def issueWord (w : Word) (s : State) : State := { s with ccmd := s.ccmd ++ [w], pend := true }

/-- Issue `SET_DIR p, d` (R118). Until the ACK the pin's direction is in transit, so it is unknown (R201; log 10). -/
def issueSetDir (p : Pin) (d : Direction) (s : State) : State :=
  issueWord (encode (.setDir p d)) (s.setLine p { s.line p with dir := none })

/-- Issue `WRITE p, l` (R119). Until the ACK the driven level is in transit, so it is unknown (R202; log 10). -/
def issueWrite (p : Pin) (l : Level) (s : State) : State :=
  issueWord (encode (.write p l)) (s.setLine p { s.line p with out := none })

/-- Issue `WAIT_EDGE p, t` (R130): nothing but the word and `PEND` changes. -/
def issueWaitEdge (p : Pin) (t : Dur) (s : State) : State := issueWord (encode (.waitEdge p t)) s

/-- Issue `SLEEP_US n` (R120): nothing but the word and `PEND` changes. -/
def issueSleepUs (n : Dur) (s : State) : State := issueWord (encode (.sleepUs n)) s

/-- Issue `SLEEP_MS n` (R121): nothing but the word and `PEND` changes. -/
def issueSleepMs (n : Dur) (s : State) : State := issueWord (encode (.sleepMs n)) s

/-- The command the current state issues: the column "command issued" of R23's table. -/
def commandOf (s : State) : Option Instr :=
  match s.state with
  | .hsDirOut => some (.setDir s.pin .output)
  | .hsDriveHigh => some (.write s.pin .high)
  | .hsIdleHold => some (.sleepUs s.cfg.tIdleHoldUs)
  | .hsDriveLow => some (.write s.pin .low)
  | .hsLowHold => some (.sleepMs (s.cfg.record s.model).startHoldMs)
  | .hsRelease => some (.setDir s.pin .input)
  | .hsSettle => some (.sleepUs s.cfg.tSettleUs)
  | .capLead | .capAckLow | .capAckHigh | .capBitLow | .capBitHigh => some (.waitEdge s.pin s.cfg.edgeTimeoutUs)
  | .retryDelay => some (.sleepMs s.cfg.retryDelayMs)
  | .idle | .attStart | .check | .convert | .gate | .attDone => none

/-- Whether the `issue` step enabled now emits exactly the command `i` (R12, R23). -/
def issuesNow (s : State) (i : Instr) : Bool := !s.pend && decide (commandOf s = some i)

/-! ## Completing a command (the ACK of R122, R201, R202) -/

/-- After its ACK the pin has the direction (R118, R201). The level driven before the first WRITE is open (U13): it is unknown (log 11). -/
def completeSetDir (p : Pin) (d : Direction) (s : State) : State :=
  s.setLine p { dir := some d, out := match d with | .output => none | .input => (s.line p).out }

/-- After its ACK the pin drives the level (R119, R202). A WRITE to a pin not in Output mode is undefined (U10): the level is unknown (log 12). -/
def completeWrite (p : Pin) (l : Level) (s : State) : State :=
  s.setLine p { s.line p with out := if (s.line p).dir = some .output then some l else none }

/-! ## Consuming a response (step kind `respond`, R12) -/

/-- A `respond` step: take the response on offer and run the state's clause on it. With none on offer DHTDEC waits, unchanged (R209, R223;
log 5). A word with a reserved kind or reserved bits leaves it stuck (U4), and so does a duration that is not of the instance's width (log 16). -/
def respondWith (clause : Response → State → Host.Outcome State Fault Refusal) (s : State) : Host.Outcome State Fault Refusal :=
  match s.crsp with
  | [] => .next s
  | w :: rest =>
    match decodeResponseFor s.cfg w with
    | .error _ => .fault .malformedResponse
    | .ok r => clause r { s with crsp := rest }

/-- The clause "require resp = ACK; PEND <- 0; STATE <- q" (R111 to R117, R176), after the command's own effect on the line. -/
def ackThen (q : SeqState) (r : Response) (s : State) : Host.Outcome State Fault Refusal :=
  match r with
  | .ack => .next { s with pend := false, state := q }
  | .edge _ _ | .timeout => .fault .unexpectedResponse

/-- `TRACE <- TRACE ++ [(l, d)]` (R132). -/
def appendTrace (l : Level) (d : Dur) (s : State) : State :=
  { s with trace := s.trace ++ [{ level := l, duration := d }] }

/-! ## Failing an attempt (the one exception, R194) and starting one (the return from it, R198) -/

/-- `attempt_fail(K): ATT_RES <- K; STATE <- ATT_DONE` (R194). -/
def attemptFail (k : AttRes) (s : State) : State := { s with attRes := k, state := .attDone }

/-- The start of an attempt (R110), where the retry path returns to (R198). -/
def startAttempt (s : State) : State :=
  { s with attempts := s.attempts + 1, sr := 0, bitcnt := 0, trace := [], state := .hsDirOut }

/-! ## The host's side (step kind `accept`; publishing) -/

/-- The `accept` step (R100). -/
def acceptRead (m : SensorModel) (p : Pin) (s : State) : State :=
  { s with model := m, pin := p, attempts := 0, rs := 0, resHum := none, resTemp := none, state := .attStart }

/-- `publish READING` (R102). -/
def publishReading (s : State) : State :=
  { s with resHum := some s.humF, resTemp := some s.tempF, rs := encode .resultReading, state := .idle }

/-- `publish READ_ERROR` (R103). -/
def publishReadError (s : State) : State :=
  { s with rs := encode (.resultReadError s.lastKind s.attempts), resHum := none, resTemp := none, state := .idle }

end Sys2Proof.Machine
end

