-- ==== Sys2Proof/Machine/Operands.lean ====
section
/-! DEFINITION. The operands of the datapath: the byte views of `SR` (spec/10_state.md R28), `classify` and `accumulate` (spec/42_capture_bits.md R139, R140), `tenths` and `tofloat` (spec/44_convert_gate.md R156 to R166). -/

namespace Sys2Proof.Machine

/-! ## The frame's bytes (R28, R74) -/

/-- `HH = SR[39:32]`, humidity-high. -/
def byteHH (sr : Frame) : BitVec 8 := bits sr 39 32

/-- `HL = SR[31:24]`, humidity-low. -/
def byteHL (sr : Frame) : BitVec 8 := bits sr 31 24

/-- `TH = SR[23:16]`, temperature-high. -/
def byteTH (sr : Frame) : BitVec 8 := bits sr 23 16

/-- `TL = SR[15:8]`, temperature-low. -/
def byteTL (sr : Frame) : BitVec 8 := bits sr 15 8

/-- `CK = SR[7:0]`, checksum. -/
def byteCK (sr : Frame) : BitVec 8 := bits sr 7 0

/-! ## The edge-to-bit accumulator -/

/-- `classify(d, m)` (R139): an unsigned comparison with `BIT_THRESHOLD_US[m]`, the tie as `TIE_IS_ONE` says. -/
def classify (c : Config) (m : SensorModel) (d : Dur) : BitVec 1 :=
  if (c.record m).bitThresholdUs.toNat < d.toNat then 1
  else if d.toNat < (c.record m).bitThresholdUs.toNat then 0
  else if c.tieIsOne then 1 else 0

/-- `accumulate(SR, b) = ((SR << 1) | b)[39:0]` (R140). -/
def accumulate (sr : Frame) (b : BitVec 1) : Frame := (sr <<< 1) ||| b.setWidth 40

/-! ## Stage 1 of the conversion: tenths -/

/-- The result `(h, s, t)` of `tenths`: humidity in tenths, the temperature's sign and magnitude in tenths (R29, R30). -/
structure Tenths where
  h : BitVec 16
  s : BitVec 1
  t : BitVec 15
deriving DecidableEq, Repr

/-- `tenths(TENTHS, ...)` (R156). -/
def tenthsFixed (hh hl th tl : BitVec 8) : Tenths where
  h := (hh.setWidth 16 <<< 8) ||| hl.setWidth 16
  s := bits th 7 7
  t := ((th &&& 0x7F).setWidth 15 <<< 8) ||| tl.setWidth 15

/-- `tenths(WHOLE, ...)` (R157, R158). -/
def tenthsWhole (c : Config) (hh hl th tl : BitVec 8) : Tenths where
  h := 10 * hh.setWidth 16 + (if c.dht11HFrac then hl.setWidth 16 else 0)
  s := if c.dht11TSign then bits tl 7 7 else 0
  t := 10 * th.setWidth 15

/-- `tenths(sel, HH, HL, TH, TL)` (R156, R157). -/
def tenths (c : Config) (sel : ConvSel) (hh hl th tl : BitVec 8) : Tenths :=
  match sel with
  | .whole => tenthsWhole c hh hl th tl
  | .tenths => tenthsFixed hh hl th tl

/-! ## Stage 2: float -/

/-- The bit pattern of `fl(n / 10)` for a format with `frac` fraction bits and bias `bias` (R162, R166), in integers.
`k = e + 4` is the integer with `2^e <= n/10 < 2^(e+1)`; the quotient is `n * 2^(frac - e) / 10`. -/
def mag (frac bias n : Nat) : Nat :=
  if n = 0 then 0
  else
    let k := Nat.log2 (16 * n / 10)
    let x := n * 2 ^ (frac + 4 - k)
    let m := if 5 < x % 10 then x / 10 + 1 else x / 10
    if m = 2 ^ (frac + 1) then (k + 1 + bias - 4) * 2 ^ frac
    else (k + bias - 4) * 2 ^ frac + (m - 2 ^ frac)

/-- R162. -/
def mag32 (n : Nat) : BitVec 32 := BitVec.ofNat 32 (mag 23 127 n)

/-- R166. -/
def mag64 (n : Nat) : BitVec 64 := BitVec.ofNat 64 (mag 52 1023 n)

/-- `tofloat(s, n)` in the format `FLOAT_FMT` (R161, R166). -/
def toFloat (f : FloatFmt) (s : BitVec 1) (n : Nat) : FloatVal :=
  match f with
  | .binary32 => .binary32 ((s.setWidth 32 <<< 31) ||| mag32 n)
  | .binary64 => .binary64 ((s.setWidth 64 <<< 63) ||| mag64 n)

end Sys2Proof.Machine
end

