-- ==== Sys2Proof/Machine/Flags.lean ====
section
/-! DEFINITION. The derived signals (spec/10_state.md R33): `CK_OK` (spec/43_checksum.md R151), `H_OK` and `T_OK` (spec/44_convert_gate.md R168), `BUSY`. -/

namespace Sys2Proof.Machine

/-- `checksum(a, b, c, d) = (a + b + c + d) mod 256` (R151). -/
def checksum (a b c d : BitVec 8) : BitVec 8 :=
  BitVec.ofNat 8 ((a.toNat + b.toNat + c.toNat + d.toNat) % 256)

/-- `CK_OK` of a frame (R33, R151). -/
def frameOk (sr : Frame) : Bool :=
  decide (checksum (byteHH sr) (byteHL sr) (byteTH sr) (byteTL sr) = byteCK sr)

/-- `CK_OK` (R33). -/
def ckOk (s : State) : Bool := frameOk s.sr

/-- Whether the magnitude of a float, given by its biased exponent and fraction, is at most the integer `c` (R84, R168). The magnitude of a
normal number is `(2^frac + fraction) * 2^(exponent - bias - frac)`; below the exponent `bias` it is smaller than 1, and it is zero only for exponent 0 and
fraction 0. No pattern with the largest exponent (infinity, NaN) lies in an interval; `toFloat` gives none, nor a subnormal (R165; log 17). -/
def magnitudeLe (frac bias maxExp exponent fraction c : Nat) : Bool :=
  if exponent = maxExp then false
  else if exponent < bias then decide (exponent = 0 ∧ fraction = 0) || decide (1 ≤ c)
  else decide ((2 ^ frac + fraction) * 2 ^ (exponent - bias) ≤ c * 2 ^ frac)

/-- Whether the value of a float lies in the closed interval from `-lo` to `hi` (R168). Negative zero lies in it (R164). -/
def inRange (lo hi : Nat) (v : FloatVal) : Bool :=
  match v with
  | .binary32 b =>
    magnitudeLe 23 127 255 (bits b 30 23).toNat (bits b 22 0).toNat (if bits b 31 31 = 1 then lo else hi)
  | .binary64 b =>
    magnitudeLe 52 1023 2047 (bits b 62 52).toNat (bits b 51 0).toNat (if bits b 63 63 = 1 then lo else hi)

/-- The humidity bounds of a float: `0 <= v <= 100` (R168). -/
def humInRange (v : FloatVal) : Bool := inRange 0 100 v

/-- The temperature bounds of a float: `-40 <= v <= 80` (R168). -/
def tempInRange (v : FloatVal) : Bool := inRange 40 80 v

/-- `H_OK` (R33, R168). -/
def hOk (s : State) : Bool := humInRange s.humF

/-- `T_OK` (R33, R168). -/
def tOk (s : State) : Bool := tempInRange s.tempF

/-- `BUSY = (STATE != IDLE)` (R33). -/
def busy (s : State) : Bool := decide (s.state ≠ .idle)

end Sys2Proof.Machine
end

