-- ==== Sys2Proof/Machine/HostPort.lean ====
section
/-! DEFINITION. The host's operations: `READ`, `RESULT.READING`, `RESULT.READ_ERROR` and the micro-operation `IDLE` (spec/40_host_interface.md R100 to R105). -/

namespace Sys2Proof.Machine

/-- `READ model, pin` (R100): the `accept` step, enabled only in `STATE = IDLE` (R101 (b), U2). The word has left HCMD. A pin number
that does not fit `PIN_W` is none that `PIN` can hold (R25; log 16). -/
def execRead (m : SensorModel) (p : Pin) (s : State) : Host.Outcome State Fault Refusal :=
  if s.state = .idle then
    if s.cfg.pinFits p then .next (acceptRead m p s) else .refused .hostWordNotACommand
  else .refused .hostPortNotReady

/-- `RESULT.READING` (R102): published by `ATT_DONE` when `ATT_RES = Success`, and only then. -/
def execResultReading (s : State) : Host.Outcome State Fault Refusal :=
  if s.state = .attDone ∧ s.attRes = .success then .next (publishReading s) else .refused .resultNotPublished

/-- `RESULT.READ_ERROR` (R103): published by `ATT_DONE` when the attempt failed and `ATTEMPTS = ATTEMPT_CAP`, after `LAST_KIND <- ATT_RES` (R175),
with the word's `KIND` and `ATTEMPTS_MADE` those registers (log 9). -/
def execResultReadError (kind : AttRes) (attemptsMade : BitVec 8) (s : State) : Host.Outcome State Fault Refusal :=
  if s.state = .attDone ∧ s.attRes ≠ .success ∧ s.attempts = s.cfg.attemptCap ∧ kind = s.lastKind ∧ kind = s.attRes
      ∧ attemptsMade = s.attempts then
    .next (publishReadError s)
  else .refused .resultNotPublished

/-- `IDLE` (R105): its only step is the `accept` of a host word on offer. With none on offer nothing changes (log 5); a word that spells no command of the
instance is not accepted (R86 (a), R101 (a), U3; log 7, log 16). -/
def execIdle (s : State) : Host.Outcome State Fault Refusal :=
  match s.hcmd with
  | [] => .next s
  | w :: rest =>
    match decodeFor s.cfg .hcmd w with
    | .ok (.read m p) => .next (acceptRead m p { s with hcmd := rest })
    | _ => .refused .hostWordNotACommand

end Sys2Proof.Machine
end

