-- ==== Sys2Proof/Machine/Handshake.lean ====
section
/-! DEFINITION. `ATT_START`, the seven handshake micro-operations, and the commands `SET_DIR`, `WRITE`, `SLEEP_US`, `SLEEP_MS` (spec/41_handshake.md R110 to R121). -/

namespace Sys2Proof.Machine

/-- `ATT_START` (R110). -/
def execAttStart (s : State) : Host.Outcome State Fault Refusal := .next (startAttempt s)

/-- The `respond` clause of `HS_DIR_OUT` (R111). -/
def hsDirOutRespond (r : Response) (s : State) : Host.Outcome State Fault Refusal :=
  ackThen .hsDriveHigh r (completeSetDir s.pin .output s)

/-- `HS_DIR_OUT` (R111): "sets pin to output mode". -/
def execHsDirOut (s : State) : Host.Outcome State Fault Refusal :=
  if s.pend then respondWith hsDirOutRespond s else .next (issueSetDir s.pin .output s)

/-- The `respond` clause of `HS_DRIVE_HIGH` (R112). -/
def hsDriveHighRespond (r : Response) (s : State) : Host.Outcome State Fault Refusal :=
  ackThen .hsIdleHold r (completeWrite s.pin .high s)

/-- `HS_DRIVE_HIGH` (R112): "drives it high". -/
def execHsDriveHigh (s : State) : Host.Outcome State Fault Refusal :=
  if s.pend then respondWith hsDriveHighRespond s else .next (issueWrite s.pin .high s)

/-- The `respond` clause of `HS_IDLE_HOLD` (R113). -/
def hsIdleHoldRespond (r : Response) (s : State) : Host.Outcome State Fault Refusal := ackThen .hsDriveLow r s

/-- `HS_IDLE_HOLD` (R113): "holds briefly"; a length of 0 is still issued. -/
def execHsIdleHold (s : State) : Host.Outcome State Fault Refusal :=
  if s.pend then respondWith hsIdleHoldRespond s else .next (issueSleepUs s.cfg.tIdleHoldUs s)

/-- The `respond` clause of `HS_DRIVE_LOW` (R114). -/
def hsDriveLowRespond (r : Response) (s : State) : Host.Outcome State Fault Refusal :=
  ackThen .hsLowHold r (completeWrite s.pin .low s)

/-- `HS_DRIVE_LOW` (R114): the start signal. -/
def execHsDriveLow (s : State) : Host.Outcome State Fault Refusal :=
  if s.pend then respondWith hsDriveLowRespond s else .next (issueWrite s.pin .low s)

/-- The `respond` clause of `HS_LOW_HOLD` (R115). -/
def hsLowHoldRespond (r : Response) (s : State) : Host.Outcome State Fault Refusal := ackThen .hsRelease r s

/-- `HS_LOW_HOLD` (R115): "for a model-dependent hold time". -/
def execHsLowHold (s : State) : Host.Outcome State Fault Refusal :=
  if s.pend then respondWith hsLowHoldRespond s else .next (issueSleepMs (s.cfg.record s.model).startHoldMs s)

/-- The `respond` clause of `HS_RELEASE` (R116). -/
def hsReleaseRespond (r : Response) (s : State) : Host.Outcome State Fault Refusal :=
  ackThen .hsSettle r (completeSetDir s.pin .input s)

/-- `HS_RELEASE` (R116): "releases the line (switches to input)". -/
def execHsRelease (s : State) : Host.Outcome State Fault Refusal :=
  if s.pend then respondWith hsReleaseRespond s else .next (issueSetDir s.pin .input s)

/-- The `respond` clause of `HS_SETTLE` (R117). -/
def hsSettleRespond (r : Response) (s : State) : Host.Outcome State Fault Refusal := ackThen .capLead r s

/-- `HS_SETTLE` (R117): "waits a short settle window". -/
def execHsSettle (s : State) : Host.Outcome State Fault Refusal :=
  if s.pend then respondWith hsSettleRespond s else .next (issueSleepUs s.cfg.tSettleUs s)

/-- `SET_DIR pin, dir` (R118): the `issue` step that emits it (R12, R23; log 9). -/
def execSetDir (p : Pin) (d : Direction) (s : State) : Host.Outcome State Fault Refusal :=
  if issuesNow s (.setDir p d) then .next (issueSetDir p d s) else .refused .commandNotIssued

/-- `WRITE pin, level` (R119): the `issue` step that emits it (R12, R23; log 9), "valid only in Output mode" (R202, U10; log 12). -/
def execWrite (p : Pin) (l : Level) (s : State) : Host.Outcome State Fault Refusal :=
  if issuesNow s (.write p l) then
    if (s.line p).dir = some .input then .refused .writeInInputMode else .next (issueWrite p l s)
  else .refused .commandNotIssued

/-- `SLEEP_US n` (R120): the `issue` step that emits it (R12, R23; log 9). -/
def execSleepUs (n : Dur) (s : State) : Host.Outcome State Fault Refusal :=
  if issuesNow s (.sleepUs n) then .next (issueSleepUs n s) else .refused .commandNotIssued

/-- `SLEEP_MS n` (R121): the `issue` step that emits it (R12, R23; log 9). -/
def execSleepMs (n : Dur) (s : State) : Host.Outcome State Fault Refusal :=
  if issuesNow s (.sleepMs n) then .next (issueSleepMs n s) else .refused .commandNotIssued

end Sys2Proof.Machine
end

