-- ==== Sys2Proof/Machine/Capture.lean ====
section
/-! DEFINITION. The command `WAIT_EDGE` and the five capture micro-operations (spec/42_capture_bits.md R130 to R138). -/

namespace Sys2Proof.Machine

/-- `WAIT_EDGE pin, timeout_us` (R130): the `issue` step that emits it (R12, R23; log 9). -/
def execWaitEdge (p : Pin) (t : Dur) (s : State) : Host.Outcome State Fault Refusal :=
  if issuesNow s (.waitEdge p t) then .next (issueWaitEdge p t s) else .refused .commandNotIssued

/-- `PEND <- 0; attempt_fail(Timeout)`, the end of a capture (R133, R191). -/
def captureTimeout (s : State) : State := attemptFail .timeout { s with pend := false }

/-- The clause of `CAP_ACK_LOW`, `CAP_ACK_HIGH` and `CAP_BIT_LOW` (R135 to R137): a segment of the expected level moves on, whatever its duration
(R144); one of the other level, or a TIMEOUT, fails the attempt. -/
def expectLevel (want : Level) (q : SeqState) (r : Response) (s : State) : Host.Outcome State Fault Refusal :=
  match r with
  | .edge l d =>
    if l = want then .next { appendTrace l d s with pend := false, state := q }
    else .next (captureTimeout (appendTrace l d s))
  | .timeout => .next (captureTimeout s)
  | .ack => .fault .unexpectedResponse

/-- The `respond` clause of `CAP_LEAD` (R134): any level, any duration. -/
def capLeadRespond (r : Response) (s : State) : Host.Outcome State Fault Refusal :=
  match r with
  | .edge l d => .next { appendTrace l d s with pend := false, state := .capAckLow }
  | .timeout => .next (captureTimeout s)
  | .ack => .fault .unexpectedResponse

/-- `CAP_LEAD` (R134): discards the leading segment. -/
def execCapLead (s : State) : Host.Outcome State Fault Refusal :=
  if s.pend then respondWith capLeadRespond s else .next (issueWaitEdge s.pin s.cfg.edgeTimeoutUs s)

/-- The `respond` clause of `CAP_ACK_LOW` (R135). -/
def capAckLowRespond (r : Response) (s : State) : Host.Outcome State Fault Refusal := expectLevel .low .capAckHigh r s

/-- `CAP_ACK_LOW` (R135). -/
def execCapAckLow (s : State) : Host.Outcome State Fault Refusal :=
  if s.pend then respondWith capAckLowRespond s else .next (issueWaitEdge s.pin s.cfg.edgeTimeoutUs s)

/-- The `respond` clause of `CAP_ACK_HIGH` (R136). -/
def capAckHighRespond (r : Response) (s : State) : Host.Outcome State Fault Refusal := expectLevel .high .capBitLow r s

/-- `CAP_ACK_HIGH` (R136). -/
def execCapAckHigh (s : State) : Host.Outcome State Fault Refusal :=
  if s.pend then respondWith capAckHighRespond s else .next (issueWaitEdge s.pin s.cfg.edgeTimeoutUs s)

/-- The `respond` clause of `CAP_BIT_LOW` (R137). -/
def capBitLowRespond (r : Response) (s : State) : Host.Outcome State Fault Refusal := expectLevel .low .capBitHigh r s

/-- `CAP_BIT_LOW` (R137). -/
def execCapBitLow (s : State) : Host.Outcome State Fault Refusal :=
  if s.pend then respondWith capBitLowRespond s else .next (issueWaitEdge s.pin s.cfg.edgeTimeoutUs s)

/-- Where `CAP_BIT_HIGH` goes with `n` bits shifted in: 40 make a frame (R138). -/
def afterBit (n : BitVec 6) : SeqState := if n = 40 then .check else .capBitLow

/-- Shift in the bit of a high phase of duration `d` and count it (R138 to R140). -/
def shiftBit (d : Dur) (s : State) : State :=
  { s with sr := accumulate s.sr (classify s.cfg s.model d), bitcnt := s.bitcnt + 1,
           state := afterBit (s.bitcnt + 1) }

/-- The `respond` clause of `CAP_BIT_HIGH` (R138). -/
def capBitHighRespond (r : Response) (s : State) : Host.Outcome State Fault Refusal :=
  match r with
  | .edge .high d => .next (shiftBit d { appendTrace .high d s with pend := false })
  | .edge .low d => .next (captureTimeout (appendTrace .low d s))
  | .timeout => .next (captureTimeout s)
  | .ack => .fault .unexpectedResponse

/-- `CAP_BIT_HIGH` (R138): the edge-to-bit accumulator. -/
def execCapBitHigh (s : State) : Host.Outcome State Fault Refusal :=
  if s.pend then respondWith capBitHighRespond s else .next (issueWaitEdge s.pin s.cfg.edgeTimeoutUs s)

end Sys2Proof.Machine
end

