-- ==== Sys2Proof/Machine/Frame.lean ====
section
/-! DEFINITION. `CHECK` (spec/43_checksum.md R150), `CONVERT` and `GATE` (spec/44_convert_gate.md R155, R167). -/

namespace Sys2Proof.Machine

/-- `CHECK` (R150, R192). -/
def execCheck (s : State) : Host.Outcome State Fault Refusal :=
  if ckOk s then .next { s with state := .convert } else .next (attemptFail .checksumMismatch s)

/-- The tenths of the frame held in `SR`, by the model's formula (R155). -/
def frameTenths (s : State) : Tenths :=
  tenths s.cfg (s.cfg.record s.model).convSel (byteHH s.sr) (byteHL s.sr) (byteTH s.sr) (byteTL s.sr)

/-- `CONVERT` (R155). -/
def execConvert (s : State) : Host.Outcome State Fault Refusal :=
  .next { s with
    h10 := (frameTenths s).h, tNeg := (frameTenths s).s, tMag := (frameTenths s).t,
    humF := toFloat s.cfg.floatFmt 0 (frameTenths s).h.toNat,
    tempF := toFloat s.cfg.floatFmt (frameTenths s).s (frameTenths s).t.toNat,
    state := .gate }

/-- `GATE` (R167, R193). -/
def execGate (s : State) : Host.Outcome State Fault Refusal :=
  if hOk s && tOk s then .next { s with attRes := .success, state := .attDone }
  else .next (attemptFail .implausibleValue s)

end Sys2Proof.Machine
end

