-- ==== Sys2Proof/Machine/Retry.lean ====
section
/-! DEFINITION. The retry orchestrator: `ATT_DONE` and `RETRY_DELAY` (spec/45_retry.md R175, R176). -/

namespace Sys2Proof.Machine

/-- `ATT_DONE` (R175): publish the reading, or record the failure and publish the error at the cap, or retry. -/
def execAttDone (s : State) : Host.Outcome State Fault Refusal :=
  if s.attRes = .success then .next (publishReading s)
  else if s.attempts = s.cfg.attemptCap then .next (publishReadError { s with lastKind := s.attRes })
  else .next { s with lastKind := s.attRes, state := .retryDelay }

/-- The `respond` clause of `RETRY_DELAY` (R176). -/
def retryDelayRespond (r : Response) (s : State) : Host.Outcome State Fault Refusal := ackThen .attStart r s

/-- `RETRY_DELAY` (R176). -/
def execRetryDelay (s : State) : Host.Outcome State Fault Refusal :=
  if s.pend then respondWith retryDelayRespond s else .next (issueSleepMs s.cfg.retryDelayMs s)

end Sys2Proof.Machine
end

