-- ==== Sys2Proof/Machine/Responses.lean ====
section
/-! DEFINITION. The responses `ACK`, `EDGE`, `TIMEOUT` (spec/41_handshake.md R122, spec/42_capture_bits.md R132, R133): the `respond` step of the state that consumes them. -/

namespace Sys2Proof.Machine

/-- The `respond` step of the current state on a response that has left CRSP (R12, R23). A state that issues no command expects none. -/
def respondIn (r : Response) (s : State) : Host.Outcome State Fault Refusal :=
  match s.state with
  | .hsDirOut => hsDirOutRespond r s
  | .hsDriveHigh => hsDriveHighRespond r s
  | .hsIdleHold => hsIdleHoldRespond r s
  | .hsDriveLow => hsDriveLowRespond r s
  | .hsLowHold => hsLowHoldRespond r s
  | .hsRelease => hsReleaseRespond r s
  | .hsSettle => hsSettleRespond r s
  | .capLead => capLeadRespond r s
  | .capAckLow => capAckLowRespond r s
  | .capAckHigh => capAckHighRespond r s
  | .capBitLow => capBitLowRespond r s
  | .capBitHigh => capBitHighRespond r s
  | .retryDelay => retryDelayRespond r s
  | .idle | .attStart | .check | .convert | .gate | .attDone => .fault .unexpectedResponse

/-- `ACK` (R122): the command just issued has completed. CRSP is ready only when `PEND = 1` (R70). -/
def execAck (s : State) : Host.Outcome State Fault Refusal :=
  if s.pend then respondIn .ack s else .refused .responsePortNotReady

/-- `EDGE level, elapsed` (R132): one segment, its duration `DUR_W` bits (R51; log 16). CRSP is ready only when `PEND = 1` (R70). -/
def execEdge (l : Level) (d : Dur) (s : State) : Host.Outcome State Fault Refusal :=
  if s.pend then
    if s.cfg.durFits d then respondIn (.edge l d) s else .fault .malformedResponse
  else .refused .responsePortNotReady

/-- `TIMEOUT` (R133): no edge within the bounded wait. CRSP is ready only when `PEND = 1` (R70). -/
def execTimeout (s : State) : Host.Outcome State Fault Refusal :=
  if s.pend then respondIn .timeout s else .refused .responsePortNotReady

end Sys2Proof.Machine
end

