-- ==== Sys2Proof/Machine/Dispatch.lean ====
section
/-! DEFINITION. The dispatch: one arm per operation of the opcode map (spec/30_encoding.md R85), each one call of its meaning. -/

namespace Sys2Proof.Machine

def exec (i : Instr) (s : State) : Host.Outcome State Fault Refusal :=
  match i with
  | .read m p => Sys2Proof.Machine.execRead m p s
  | .resultReading => Sys2Proof.Machine.execResultReading s
  | .resultReadError kind n => Sys2Proof.Machine.execResultReadError kind n s
  | .setDir p d => Sys2Proof.Machine.execSetDir p d s
  | .write p l => Sys2Proof.Machine.execWrite p l s
  | .waitEdge p t => Sys2Proof.Machine.execWaitEdge p t s
  | .sleepUs n => Sys2Proof.Machine.execSleepUs n s
  | .sleepMs n => Sys2Proof.Machine.execSleepMs n s
  | .ack => Sys2Proof.Machine.execAck s
  | .edge l d => Sys2Proof.Machine.execEdge l d s
  | .timeout => Sys2Proof.Machine.execTimeout s
  | .idle => Sys2Proof.Machine.execIdle s
  | .attStart => Sys2Proof.Machine.execAttStart s
  | .hsDirOut => Sys2Proof.Machine.execHsDirOut s
  | .hsDriveHigh => Sys2Proof.Machine.execHsDriveHigh s
  | .hsIdleHold => Sys2Proof.Machine.execHsIdleHold s
  | .hsDriveLow => Sys2Proof.Machine.execHsDriveLow s
  | .hsLowHold => Sys2Proof.Machine.execHsLowHold s
  | .hsRelease => Sys2Proof.Machine.execHsRelease s
  | .hsSettle => Sys2Proof.Machine.execHsSettle s
  | .capLead => Sys2Proof.Machine.execCapLead s
  | .capAckLow => Sys2Proof.Machine.execCapAckLow s
  | .capAckHigh => Sys2Proof.Machine.execCapAckHigh s
  | .capBitLow => Sys2Proof.Machine.execCapBitLow s
  | .capBitHigh => Sys2Proof.Machine.execCapBitHigh s
  | .check => Sys2Proof.Machine.execCheck s
  | .convert => Sys2Proof.Machine.execConvert s
  | .gate => Sys2Proof.Machine.execGate s
  | .attDone => Sys2Proof.Machine.execAttDone s
  | .retryDelay => Sys2Proof.Machine.execRetryDelay s

end Sys2Proof.Machine
end

