-- ==== Sys2Proof/Machine/Fetch.lean ====
section
/-! DEFINITION. What a step runs (spec/00_scope.md R12, spec/10_state.md R21), and how a word is laid where the next step runs it. -/

namespace Sys2Proof.Machine

/-- The micro-operation `STATE` names, as a program counter names the next instruction (R21). -/
def fetch (s : State) : Instr := microOp s.state

/-! ## Laying an operation where the next step runs it (log 14) -/

/-- A state that expects ACK: the current one if it does, else `HS_DIR_OUT` (R122). -/
def ackState (q : SeqState) : SeqState :=
  match q with
  | .hsDirOut | .hsDriveHigh | .hsIdleHold | .hsDriveLow | .hsLowHold | .hsRelease | .hsSettle | .retryDelay => q
  | .idle | .attStart | .capLead | .capAckLow | .capAckHigh | .capBitLow | .capBitHigh
  | .check | .convert | .gate | .attDone => .hsDirOut

/-- A capture state: the current one if it is one, else `CAP_LEAD` (R132, R133). -/
def captureState (q : SeqState) : SeqState :=
  match q with
  | .capLead | .capAckLow | .capAckHigh | .capBitLow | .capBitHigh => q
  | .idle | .attStart | .hsDirOut | .hsDriveHigh | .hsIdleHold | .hsDriveLow | .hsLowHold | .hsRelease | .hsSettle
  | .check | .convert | .gate | .attDone | .retryDelay => .capLead

/-- A threshold below the timeout `t` (R9), the given one if it is. -/
def thresholdBelow (t : Dur) (r : ModelRecord) : ModelRecord :=
  { r with bitThresholdUs := if r.bitThresholdUs.toNat < t.toNat then r.bitThresholdUs else t - 1 }

/-- A configuration with `EDGE_TIMEOUT_US = t`. -/
def withEdgeTimeout (t : Dur) (c : Config) : Config :=
  { c with edgeTimeoutUs := t, dht11 := thresholdBelow t c.dht11, dht22 := thresholdBelow t c.dht22,
           am2302 := thresholdBelow t c.am2302 }

/-- A configuration whose widths the operation fits (R8): the given one if it fits, else one with the widths of the words' fields. -/
def withWidthsFor (i : Instr) (c : Config) : Config :=
  if i.fits c then c else { c with pinW := pinFieldW, durW := durFieldW }

/-- The state in which the next step runs the operation `i`, whose word is `w`: the word on its input port, or the registers and parameters from which
DHTDEC issues or publishes it, or the state that names it. -/
def placeInstr (i : Instr) (w : Word) (s : State) : State :=
  match i with
  | .read _ _ => { s with state := .idle, pend := false, hcmd := w :: s.hcmd }
  | .resultReading => { s with state := .attDone, pend := false, attRes := .success }
  | .resultReadError k n =>
    { s with state := .attDone, pend := false, attRes := k, attempts := n, cfg := { s.cfg with attemptCap := n } }
  | .setDir p .output => { s with state := .hsDirOut, pend := false, pin := p }
  | .setDir p .input => { s with state := .hsRelease, pend := false, pin := p }
  | .write p .high => { s with state := .hsDriveHigh, pend := false, pin := p }
  | .write p .low => { s with state := .hsDriveLow, pend := false, pin := p }
  | .waitEdge p t =>
    { s with state := captureState s.state, pend := false, pin := p, cfg := withEdgeTimeout t s.cfg }
  | .sleepUs n => { s with state := .hsSettle, pend := false, cfg := { s.cfg with tSettleUs := n } }
  | .sleepMs n => { s with state := .retryDelay, pend := false, cfg := { s.cfg with retryDelayMs := n } }
  | .ack => { s with state := ackState s.state, pend := true, crsp := w :: s.crsp }
  | .edge _ _ | .timeout => { s with state := captureState s.state, pend := true, crsp := w :: s.crsp }
  | .idle => { s with state := .idle, pend := false, hcmd := [] }
  | .attStart => { s with state := .attStart, pend := false }
  | .hsDirOut => { s with state := .hsDirOut, pend := false }
  | .hsDriveHigh => { s with state := .hsDriveHigh, pend := false }
  | .hsIdleHold => { s with state := .hsIdleHold, pend := false }
  | .hsDriveLow => { s with state := .hsDriveLow, pend := false }
  | .hsLowHold => { s with state := .hsLowHold, pend := false }
  | .hsRelease => { s with state := .hsRelease, pend := false }
  | .hsSettle => { s with state := .hsSettle, pend := false }
  | .capLead => { s with state := .capLead, pend := false }
  | .capAckLow => { s with state := .capAckLow, pend := false }
  | .capAckHigh => { s with state := .capAckHigh, pend := false }
  | .capBitLow => { s with state := .capBitLow, pend := false }
  | .capBitHigh => { s with state := .capBitHigh, pend := false }
  | .check => { s with state := .check, pend := false }
  | .convert => { s with state := .convert, pend := false }
  | .gate => { s with state := .gate, pend := false }
  | .attDone => { s with state := .attDone, pend := false }
  | .retryDelay => { s with state := .retryDelay, pend := false }

/-- A word of the opcode table laid where the next step runs it. A 32-bit word that spells no operation is offered to the host port, which does not
accept it (R86 (a)); a state code that does not exist cannot be laid anywhere (R86 (d)). -/
def placeWord (s : State) (nbits w : Nat) : State :=
  match decodeTableWord nbits w with
  | some i => placeInstr i (BitVec.ofNat 32 w) { s with cfg := withWidthsFor i s.cfg }
  | none =>
    if nbits = 32 then { s with state := .idle, pend := false, hcmd := BitVec.ofNat 32 w :: s.hcmd } else s

end Sys2Proof.Machine
end

