-- ==== Sys2Proof/Machine/Step.lean ====
section
/-! DEFINITION. One step of DHTDEC: run the micro-operation `STATE` names (spec/10_state.md R21), on a well-formed configuration only (spec/00_scope.md R9, U14). -/

namespace Sys2Proof.Machine

/-- One accept, issue, respond or internal step (R6, R12). -/
def step (s : State) : Host.Outcome State Fault Refusal :=
  if s.cfg.wf then exec (fetch s) s else .refused .illFormedConfiguration

/-- `s` with the operation whose table word is `w` laid where the next step runs it (log 14). -/
def State.withFetchWord (s : State) (nbits w : Nat) : State := placeWord s nbits w

end Sys2Proof.Machine
end

