-- ==== Sys2Proof/Machine/Pure.lean ====
section
/-! DEFINITION. The decoder and the orchestrator as pure functions, as the spec gives them for readers (spec/42_capture_bits.md R145, spec/45_retry.md R179), written apart from the sequencer so that statements can compare the two. -/

namespace Sys2Proof.Machine

/-! ## The capture (R145) -/

/-- `expect[k]` of R145: `[any, 0, 1] ++ 40 * [0, 1]`; `none` is "any". -/
def expectedLevel (k : Nat) : Option Level :=
  if k = 0 then none else if k % 2 = 1 then some .low else some .high

/-- Whether the answer to the `k`-th WAIT_EDGE ends the capture in `Timeout` (R131, R145). -/
def captureFails (k : Nat) (r : Response) : Bool :=
  match r with
  | .timeout => true
  | .edge l _ => decide (expectedLevel k ≠ none ∧ expectedLevel k ≠ some l)
  | .ack => false

/-- The duration of an answer (0 where it is no EDGE). -/
def durationOf (r : Response) : Dur :=
  match r with
  | .edge _ d => d
  | .ack | .timeout => 0

/-- The index of the first answer of `tr`, from index `k` on, that fails the capture. -/
def firstFailure (k : Nat) (tr : List Response) : Option Nat :=
  match tr with
  | [] => none
  | r :: rest => if captureFails k r then some k else firstFailure (k + 1) rest

/-- `sum over i = 0..39 of classify(tr[4 + 2i].d, m) * 2^(39 - i)` (R145). -/
def frameValue (c : Config) (m : SensorModel) (tr : List Response) : Nat :=
  ((List.range 40).map fun i =>
    (classify c m (durationOf (tr.getD (4 + 2 * i) .timeout))).toNat * 2 ^ (39 - i)).sum

/-- What one capture comes to. -/
inductive CaptureResult where
  | timeout
  | frame (f : Frame)
deriving DecidableEq, Repr

/-- `capture(tr, m)` (R145) on the answers `tr` of one attempt: only the first 83 are looked at. `none` where fewer than 83 are given and none of them
fails: the capture is not over. -/
def capture (c : Config) (m : SensorModel) (tr : List Response) : Option CaptureResult :=
  match firstFailure 0 (tr.take 83) with
  | some _ => some .timeout
  | none => if 83 ≤ tr.length then some (.frame (BitVec.ofNat 40 (frameValue c m tr))) else none

/-- The number of WAIT_EDGE commands of the attempt: `min(83, k_fail + 1)` (R141, R145). -/
def captureLength (tr : List Response) : Nat :=
  match firstFailure 0 (tr.take 83) with
  | some k => k + 1
  | none => min 83 tr.length

/-! ## Validation, conversion, gate (R150, R155, R167, R169) -/

/-- The attempt's result on a complete frame, by the integer form of the gate (R169). -/
def frameResult (c : Config) (m : SensorModel) (f : Frame) : AttRes :=
  if checksum (byteHH f) (byteHL f) (byteTH f) (byteTL f) ≠ byteCK f then .checksumMismatch
  else
    let t := tenths c (c.record m).convSel (byteHH f) (byteHL f) (byteTH f) (byteTL f)
    if t.h.toNat ≤ 1000 ∧ ((t.s = 0 ∧ t.t.toNat ≤ 800) ∨ (t.s = 1 ∧ t.t.toNat ≤ 400)) then .success
    else .implausibleValue

/-! ## The orchestrator (R179) -/

/-- How a read ends. -/
inductive ReadResult where
  | reading (attempts : Nat)
  | readError (kind : AttRes) (attemptsMade : Nat)
deriving DecidableEq, Repr

/-- `read` of R179 on the results of attempts `k, k + 1, ...`; `none` where the list ends before the read does. -/
def orchestrate (cap k : Nat) (results : List AttRes) : Option ReadResult :=
  match results with
  | [] => none
  | r :: rest =>
    if r = .success then some (.reading k)
    else if k = cap then some (.readError r k)
    else orchestrate cap (k + 1) rest

end Sys2Proof.Machine
end

