-- ==== Sys2Proof/Safety.lean ====
section
/-! DEFINITION. What counts as a safe run, in the terms claims use: the collaborator's contract (spec/60_exceptions.md R200 to R205), the invariants of the reachable states, the bounds of spec/45_retry.md R178, and the agreement of two states on what is live (spec/10_state.md R41, R43). -/

namespace Sys2Proof.Machine

/-! ## Kinds of states (R23) -/

/-- The command states of R23. -/
def isCommandState (q : SeqState) : Bool :=
  match q with
  | .hsDirOut | .hsDriveHigh | .hsIdleHold | .hsDriveLow | .hsLowHold | .hsRelease | .hsSettle
  | .capLead | .capAckLow | .capAckHigh | .capBitLow | .capBitHigh | .retryDelay => true
  | .idle | .attStart | .check | .convert | .gate | .attDone => false

/-- The five capture states (R130). -/
def isCaptureState (q : SeqState) : Bool :=
  match q with
  | .capLead | .capAckLow | .capAckHigh | .capBitLow | .capBitHigh => true
  | .idle | .attStart | .hsDirOut | .hsDriveHigh | .hsIdleHold | .hsDriveLow | .hsLowHold | .hsRelease | .hsSettle
  | .check | .convert | .gate | .attDone | .retryDelay => false

/-- The column "successor(s)" of R23's table. -/
def successors (q : SeqState) : List SeqState :=
  match q with
  | .idle => [.attStart]
  | .attStart => [.hsDirOut]
  | .hsDirOut => [.hsDriveHigh]
  | .hsDriveHigh => [.hsIdleHold]
  | .hsIdleHold => [.hsDriveLow]
  | .hsDriveLow => [.hsLowHold]
  | .hsLowHold => [.hsRelease]
  | .hsRelease => [.hsSettle]
  | .hsSettle => [.capLead]
  | .capLead => [.capAckLow, .attDone]
  | .capAckLow => [.capAckHigh, .attDone]
  | .capAckHigh => [.capBitLow, .attDone]
  | .capBitLow => [.capBitHigh, .attDone]
  | .capBitHigh => [.capBitLow, .check, .attDone]
  | .check => [.convert, .attDone]
  | .convert => [.gate]
  | .gate => [.attDone]
  | .attDone => [.idle, .retryDelay]
  | .retryDelay => [.attStart]

/-! ## The contract of the two input agents -/

/-- The kinds of response a state's command allows (R77): EDGE or TIMEOUT after WAIT_EDGE, ACK after the others. -/
def allowedResponse (q : SeqState) (r : Response) : Bool :=
  match r with
  | .ack => isCommandState q && !isCaptureState q
  | .edge _ _ | .timeout => isCaptureState q

/-- While a command is outstanding, the response on offer is one its command allows (R205). -/
def collaboratorReady (s : State) : Bool :=
  if s.pend then
    match s.crsp with
    | [] => false
    | w :: _ =>
      match decodeResponseFor s.cfg w with
      | .ok r => allowedResponse s.state r
      | .error _ => false
  else true

/-- In `IDLE`, the host word on offer is a READ of the instance (R8, R71, R100). -/
def hostReady (s : State) : Bool :=
  if s.state = .idle then
    match s.hcmd with
    | [] => false
    | w :: _ =>
      match decodeFor s.cfg .hcmd w with
      | .ok _ => true
      | .error _ => false
  else true

/-! ## Invariants -/

/-- R22: in every internal state and in `IDLE`, `PEND = 0`. -/
def pendInv (s : State) : Bool := !s.pend || isCommandState s.state

/-- The number of segments consumed on entering a state's wait (R38 `SEGIDX`, R131). -/
def segIdx (s : State) : Nat := s.trace.length

/-- The counters of an attempt (R27, R34, R38, R131, R140, R143): the attempt number, the bits shifted in, the segments consumed. -/
def countInv (s : State) : Bool :=
  match s.state with
  | .idle => true
  | .attStart => decide (s.attempts.toNat < s.cfg.attemptCap.toNat)
  | .hsDirOut | .hsDriveHigh | .hsIdleHold | .hsDriveLow | .hsLowHold | .hsRelease | .hsSettle | .capLead =>
    decide (1 ≤ s.attempts.toNat ∧ s.attempts.toNat ≤ s.cfg.attemptCap.toNat
      ∧ s.bitcnt = 0 ∧ s.sr = 0 ∧ segIdx s = 0)
  | .capAckLow =>
    decide (1 ≤ s.attempts.toNat ∧ s.attempts.toNat ≤ s.cfg.attemptCap.toNat
      ∧ s.bitcnt = 0 ∧ s.sr = 0 ∧ segIdx s = 1)
  | .capAckHigh =>
    decide (1 ≤ s.attempts.toNat ∧ s.attempts.toNat ≤ s.cfg.attemptCap.toNat
      ∧ s.bitcnt = 0 ∧ s.sr = 0 ∧ segIdx s = 2)
  | .capBitLow =>
    decide (1 ≤ s.attempts.toNat ∧ s.attempts.toNat ≤ s.cfg.attemptCap.toNat
      ∧ s.bitcnt.toNat < 40 ∧ s.sr.toNat < 2 ^ s.bitcnt.toNat ∧ segIdx s = 3 + 2 * s.bitcnt.toNat)
  | .capBitHigh =>
    decide (1 ≤ s.attempts.toNat ∧ s.attempts.toNat ≤ s.cfg.attemptCap.toNat
      ∧ s.bitcnt.toNat < 40 ∧ s.sr.toNat < 2 ^ s.bitcnt.toNat ∧ segIdx s = 4 + 2 * s.bitcnt.toNat)
  | .check | .convert | .gate =>
    decide (1 ≤ s.attempts.toNat ∧ s.attempts.toNat ≤ s.cfg.attemptCap.toNat
      ∧ s.bitcnt = 40 ∧ segIdx s = 83)
  | .attDone =>
    decide (1 ≤ s.attempts.toNat ∧ s.attempts.toNat ≤ s.cfg.attemptCap.toNat
      ∧ s.bitcnt.toNat ≤ 40 ∧ segIdx s ≤ 83 ∧ (s.attRes = .success → s.bitcnt = 40 ∧ segIdx s = 83)
      ∧ (segIdx s ≤ 3 → s.bitcnt = 0 ∧ s.sr = 0))
  | .retryDelay =>
    decide (1 ≤ s.attempts.toNat ∧ s.attempts.toNat < s.cfg.attemptCap.toNat)

/-- The float registers hold the conversion of the frame in `SR` (R155, R161). -/
def floatsConverted (s : State) : Bool :=
  decide (s.humF = toFloat s.cfg.floatFmt 0 (frameTenths s).h.toNat)
    && decide (s.tempF = toFloat s.cfg.floatFmt (frameTenths s).s (frameTenths s).t.toNat)

/-- A reading that may be published (R170): the frame passed `CHECK` and `GATE`, and the floats are its conversion. -/
def readingSound (s : State) : Bool :=
  frameOk s.sr && floatsConverted s && humInRange s.humF && tempInRange s.tempF

/-- What the stages of one attempt have established, and what the result registers hold (R36, R41, R153, R170, U9): nothing while a read runs;
in `IDLE` no result, or a sound reading with exactly the floats of `HUM_F` and `TEMP_F`, or an error with a kind other than 0 and `ATTEMPTS_MADE = ATTEMPT_CAP`. -/
def resultInv (s : State) : Bool :=
  match s.state with
  | .idle =>
    decide (s.rs = 0 ∧ s.resHum = none ∧ s.resTemp = none)
      || (decide (s.rs = 0x80000000 ∧ s.resHum = some s.humF ∧ s.resTemp = some s.tempF) && readingSound s)
      || decide (s.lastKind ≠ .success
          ∧ s.rs = 0xC0000000 ||| ((attResCode s.lastKind).setWidth 32 <<< 8) ||| s.cfg.attemptCap.setWidth 32
          ∧ s.resHum = none ∧ s.resTemp = none)
  | .convert => decide (s.rs = 0 ∧ s.resHum = none ∧ s.resTemp = none) && frameOk s.sr
  | .gate => decide (s.rs = 0 ∧ s.resHum = none ∧ s.resTemp = none) && frameOk s.sr && floatsConverted s
  | .attDone =>
    decide (s.rs = 0 ∧ s.resHum = none ∧ s.resTemp = none) && (decide (s.attRes ≠ .success) || readingSound s)
  | .attStart | .hsDirOut | .hsDriveHigh | .hsIdleHold | .hsDriveLow | .hsLowHold | .hsRelease | .hsSettle
  | .capLead | .capAckLow | .capAckHigh | .capBitLow | .capBitHigh | .check | .retryDelay =>
    decide (s.rs = 0 ∧ s.resHum = none ∧ s.resTemp = none)

/-- Whether a state lies between the ACK of `HS_DIR_OUT` and the `SET_DIR` of `HS_RELEASE`: the pin is in Output mode (R52, R119). -/
def drivesLine (s : State) : Bool :=
  match s.state with
  | .hsDriveHigh | .hsIdleHold | .hsDriveLow | .hsLowHold => true
  | .hsRelease => !s.pend
  | .idle | .attStart | .hsDirOut | .hsSettle
  | .capLead | .capAckLow | .capAckHigh | .capBitLow | .capBitHigh
  | .check | .convert | .gate | .attDone | .retryDelay => false

/-- Whether the pin has been released in this attempt: from `HS_SETTLE` to the end of the attempt and through the retry delay (R39, R116, R224). -/
def releasedLine (s : State) : Bool :=
  match s.state with
  | .hsSettle | .capLead | .capAckLow | .capAckHigh | .capBitLow | .capBitHigh
  | .check | .convert | .gate | .attDone | .retryDelay => true
  | .idle | .attStart | .hsDirOut | .hsDriveHigh | .hsIdleHold | .hsDriveLow | .hsLowHold | .hsRelease => false

/-- No pin but `PIN` while it is driven is in Output mode (R224: "DHTDEC never leaves the line driven"). -/
def onlyDriven (s : State) : Bool :=
  s.lines.all fun e => decide (e.2.dir ≠ some .output) || (drivesLine s && decide (e.1 = s.pin.toNat))

/-- The level the handshake has established (R39): high through the idle hold, low through the start pulse. -/
def levelEstablished (s : State) : Bool :=
  match s.state with
  | .hsIdleHold => decide ((s.line s.pin).out = some .high)
  | .hsDriveLow => s.pend || decide ((s.line s.pin).out = some .high)
  | .hsLowHold | .hsRelease => decide ((s.line s.pin).out = some .low)
  | .idle | .attStart | .hsDirOut | .hsDriveHigh | .hsSettle
  | .capLead | .capAckLow | .capAckHigh | .capBitLow | .capBitHigh
  | .check | .convert | .gate | .attDone | .retryDelay => true

/-- The line (R39, R52, R119, R224): canonical, Output between the ACK of `HS_DIR_OUT` and `HS_RELEASE`, Input from its ACK on, the level as the
handshake drives it, and no other pin driven. -/
def lineInv (s : State) : Bool :=
  Lines.wf s.lines
    && (!drivesLine s || decide ((s.line s.pin).dir = some .output))
    && (!releasedLine s || decide ((s.line s.pin).dir = some .input))
    && levelEstablished s
    && onlyDriven s

/-- Whether a word is a command of an instance with configuration `c`: its format and its widths (R8, R72). -/
def isCommandOf (c : Config) (w : Word) : Bool :=
  match decodeFor c .ccmd w with
  | .ok _ => true
  | .error _ => false

/-- The widths of the instance (R8, R25, R51, R53): `PIN` holds a `PIN_W`-bit number, every segment of `TRACE` has a `DUR_W`-bit duration, no line
outside the pin-number space is listed, and every command issued has operands of these widths. -/
def widthInv (s : State) : Bool :=
  s.cfg.pinFits s.pin
    && (s.trace.all fun g => s.cfg.durFits g.duration)
    && (s.lines.all fun e => decide (e.1 < 2 ^ s.cfg.pinW))
    && s.ccmd.all (isCommandOf s.cfg)

/-! ## Bounds of a read (R178) -/

/-- Steps left in the current attempt, and one more for each of the publish, the retry delay's two steps and the next start: strictly falls with every step
of an attempt. -/
def stepsLeftInAttempt (s : State) : Nat :=
  let p := if s.pend then 1 else 0
  match s.state with
  | .idle => 0
  | .attStart => 1
  | .hsDirOut => 187 - p
  | .hsDriveHigh => 185 - p
  | .hsIdleHold => 183 - p
  | .hsDriveLow => 181 - p
  | .hsLowHold => 179 - p
  | .hsRelease => 177 - p
  | .hsSettle => 175 - p
  | .capLead => 173 - p
  | .capAckLow => 171 - p
  | .capAckHigh => 169 - p
  | .capBitLow => 7 + 4 * (40 - s.bitcnt.toNat) - p
  | .capBitHigh => 5 + 4 * (40 - s.bitcnt.toNat) - p
  | .check => 7
  | .convert => 6
  | .gate => 5
  | .attDone => 4
  | .retryDelay => 3 - p

/-- A bound on the steps left until the read's result is published: 190 for each attempt not yet started, and those of the current one. -/
def stepsLeft (s : State) : Nat :=
  if s.state = .idle then 0
  else (s.cfg.attemptCap.toNat - s.attempts.toNat) * 190 + stepsLeftInAttempt s

/-- A bound on the commands left in the current attempt (R178: seven handshake commands and at most 83 WAIT_EDGE). -/
def commandsLeftInAttempt (s : State) : Nat :=
  let p := if s.pend then 1 else 0
  match s.state with
  | .idle | .attStart | .check | .convert | .gate | .attDone => 0
  | .hsDirOut => 90 - p
  | .hsDriveHigh => 89 - p
  | .hsIdleHold => 88 - p
  | .hsDriveLow => 87 - p
  | .hsLowHold => 86 - p
  | .hsRelease => 85 - p
  | .hsSettle => 84 - p
  | .capLead => 83 - p
  | .capAckLow => 82 - p
  | .capAckHigh => 81 - p
  | .capBitLow => 2 * (40 - s.bitcnt.toNat) - p
  | .capBitHigh => 2 * (40 - s.bitcnt.toNat) - 1 - p
  | .retryDelay => 0

/-- A bound on the commands left until the read ends: 90 for each attempt not yet started, one retry delay before each of those but a delay already
issued or over, and those of the current attempt. Right after the accept it is `ATTEMPT_CAP * 90 + (ATTEMPT_CAP - 1)` (R178). -/
def commandsLeft (s : State) : Nat :=
  let rest := s.cfg.attemptCap.toNat - s.attempts.toNat
  match s.state with
  | .idle => 0
  | .attStart => rest * 90 + (rest - 1)
  | .retryDelay => rest * 90 + (rest - 1) + (if s.pend then 0 else 1)
  | .hsDirOut | .hsDriveHigh | .hsIdleHold | .hsDriveLow | .hsLowHold | .hsRelease | .hsSettle
  | .capLead | .capAckLow | .capAckHigh | .capBitLow | .capBitHigh
  | .check | .convert | .gate | .attDone => rest * 91 + commandsLeftInAttempt s

/-- Whether a command word is a `SET_DIR pin, OUT`, the first word of a handshake (R111, R124). -/
def isHandshakeStart (w : Word) : Bool :=
  match decodeCW w with
  | .ok (.setDir _ .output) => true
  | _ => false

/-- The number of handshakes in the command trace (R124). -/
def handshakes (s : State) : Nat := (s.ccmd.filter isHandshakeStart).length

/-- The number of attempts of the current read whose handshake has been issued (R124, R177). -/
def attemptsBegun (s : State) : Nat :=
  if s.state = .hsDirOut ∧ s.pend = false then s.attempts.toNat - 1 else s.attempts.toNat

/-! ## What is live (R41, R43) -/

/-- Two states agree on everything a later step may read and on everything the host or the collaborator sees: the control registers, the ports, the
result registers and the configuration always; the operands and the attempt count while a read runs; `SR` and `BITCNT` during the capture and
until `CONVERT`; the floats at `GATE`; the attempt's result at `ATT_DONE`, and the floats there if it is a success. Nothing is asked of `H10`, `T_NEG`, `T_MAG`,
`LAST_KIND`, `TRACE` and the line. -/
def liveAgree (s t : State) : Bool :=
  decide (s.state = t.state ∧ s.pend = t.pend ∧ s.cfg = t.cfg ∧ s.rs = t.rs ∧ s.resHum = t.resHum ∧ s.resTemp = t.resTemp
    ∧ s.hcmd = t.hcmd ∧ s.crsp = t.crsp ∧ s.ccmd = t.ccmd)
  && match s.state with
    | .idle => true
    | .attStart => decide (s.model = t.model ∧ s.pin = t.pin ∧ s.attempts = t.attempts)
    | .retryDelay => decide (s.model = t.model ∧ s.pin = t.pin ∧ s.attempts = t.attempts)
    | .hsDirOut | .hsDriveHigh | .hsIdleHold | .hsDriveLow | .hsLowHold | .hsRelease | .hsSettle
    | .capLead | .capAckLow | .capAckHigh | .capBitLow | .capBitHigh | .check | .convert =>
      decide (s.model = t.model ∧ s.pin = t.pin ∧ s.attempts = t.attempts ∧ s.sr = t.sr ∧ s.bitcnt = t.bitcnt)
    | .gate => decide (s.model = t.model ∧ s.pin = t.pin ∧ s.attempts = t.attempts ∧ s.humF = t.humF ∧ s.tempF = t.tempF)
    | .attDone =>
      decide (s.model = t.model ∧ s.pin = t.pin ∧ s.attempts = t.attempts ∧ s.attRes = t.attRes
        ∧ (s.attRes = .success → s.humF = t.humF ∧ s.tempF = t.tempF))

end Sys2Proof.Machine
end

