-- ==== Sys2Proof/Certificates/Slice0/Obligations.lean ====
section
/-! DEFINITION. The statements for the provers. Each docstring names the rule of spec/ it formalises. -/

open Sys2Proof Sys2Proof.Machine

/-! ## Words and decoding -/

/-- Decode and encode agree, for every operation with every operand (R71 to R80, R85). -/
def Obligations.EncodeDecodeAgree : Prop :=
  ∀ i : Instr, decode (portOf i) (encode i) = .ok i

/-- A word that decodes on a port is the encoding of what it decodes to: no port has two words for one operation (R85, R86). -/
def Obligations.DecodedWordIsItsEncoding : Prop :=
  ∀ (p : Port) (w : Word) (i : Instr), decode p w = .ok i → portOf i = p ∧ encode i = w

/-- The words of spec/95_test_vectors.md section 2, written out, decode to what they stand for; reserved ones are rejected by name. -/
def Obligations.WrittenWordsDecode : Prop :=
  decode .hcmd 0x10000104 = .ok (.read .dht22 4) ∧ decode .hcmd 0x100002FF = .ok (.read .am2302 255)
    ∧ decode .result 0xC0000203 = .ok (.resultReadError .checksumMismatch 3)
    ∧ decode .ccmd 0x1FF00001 = .ok (.setDir 255 .output) ∧ decode .ccmd 0x21600000 = .ok (.write 22 .low)
    ∧ decode .ccmd 0x3110012C = .ok (.waitEdge 17 300) ∧ decode .ccmd 0x400003E8 = .ok (.sleepUs 1000)
    ∧ decode .ccmd 0x50000012 = .ok (.sleepMs 18)
    ∧ decode .crsp 0x40100046 = .ok (.edge .high 70) ∧ decode .crsp 0x80000000 = .ok .timeout
    ∧ decode .ustate 17 = .ok .attDone
    ∧ decode .hcmd 0x10000304 = .error .hcReservedModel ∧ decode .hcmd 0x18000104 = .error .hcReservedBits
    ∧ decode .crsp 0xC0000000 = .error .rwReservedKind ∧ decode .crsp 0x80000001 = .error .rwReservedBits
    ∧ decode .ustate 19 = .error .ustateCode

/-! ## The host's side -/

/-- R100: the `accept` step of READ, and its frame: of READ as an operation, and of the micro-operation `IDLE` with the word `0x10000000 | (m << 8) | p` on HCMD, for every
pin number of the instance's `PIN_W` bits (R25). -/
def Obligations.ReadAccepted : Prop :=
  (∀ (m : SensorModel) (p : Pin) (s : State), s.state = .idle → p.toNat < 2 ^ s.cfg.pinW →
    exec (.read m p) s
      = .next { s with model := m, pin := p, attempts := 0, rs := 0x00000000, resHum := none, resTemp := none, state := .attStart })
    ∧ (∀ (s : State) (m : SensorModel) (p : Pin) (rest : List Word), p.toNat < 2 ^ s.cfg.pinW →
        s.hcmd = (0x10000000#32 ||| ((modelCode m).setWidth 32 <<< 8) ||| p.setWidth 32) :: rest →
        exec .idle s = .next { s with hcmd := rest, model := m, pin := p, attempts := 0, rs := 0x00000000, resHum := none,
                                      resTemp := none, state := .attStart })

/-- R101: (a) a host word with another opcode, a reserved bit or the reserved model code is not taken: there is no next state. (b) Nor is a READ while busy, and no step of a running read
consumes a host word or changes the operands. -/
def Obligations.HostWordsNotTaken : Prop :=
  (∀ (s t : State) (w : Word) (rest : List Word), s.hcmd = w :: rest →
      (w.toNat / 2 ^ 28 ≠ 1 ∨ w.toNat / 2 ^ 10 % 2 ^ 18 ≠ 0 ∨ w.toNat / 2 ^ 8 % 4 = 3) → exec .idle s ≠ .next t)
    ∧ (∀ (m : SensorModel) (p : Pin) (s t : State), s.state ≠ .idle → exec (.read m p) s ≠ .next t)
    ∧ (∀ s t : State, s.state ≠ .idle → step s = .next t → t.hcmd = s.hcmd ∧ t.model = s.model ∧ t.pin = s.pin)

/-- R102: `publish READING`, and its frame. -/
def Obligations.ReadingPublished : Prop :=
  ∀ s : State, s.state = .attDone → s.attRes = .success →
    exec .resultReading s
      = .next { s with resHum := some s.humF, resTemp := some s.tempF, rs := 0x80000000, state := .idle }

/-- R103: `publish READ_ERROR`, and its frame: `RS <- 0xC0000000 | (LAST_KIND << 8) | ATTEMPTS`. -/
def Obligations.ReadErrorPublished : Prop :=
  ∀ s : State, s.state = .attDone → s.attRes ≠ .success → s.attempts = s.cfg.attemptCap → s.lastKind = s.attRes →
    exec (.resultReadError s.lastKind s.attempts) s
      = .next { s with
          rs := 0xC0000000#32 ||| ((attResCode s.lastKind).setWidth 32 <<< 8) ||| s.attempts.setWidth 32,
          resHum := none, resTemp := none, state := .idle }

/-! ## The handshake -/

/-- R110: `ATT_START`, and its frame. -/
def Obligations.AttemptStarted : Prop :=
  ∀ s : State, exec .attStart s
    = .next { s with attempts := s.attempts + 1, sr := 0, bitcnt := 0, trace := [], state := .hsDirOut }

/-- R113, R115, R117: the three states that issue a sleep, both steps of each, and their frames. -/
def Obligations.SleepStatesIssueAndAdvance : Prop :=
  (∀ s : State, s.pend = false →
      exec .hsIdleHold s = .next { s with ccmd := s.ccmd ++ [0x40000000#32 ||| s.cfg.tIdleHoldUs.setWidth 32], pend := true }
      ∧ exec .hsLowHold s
          = .next { s with ccmd := s.ccmd ++ [0x50000000#32 ||| (s.cfg.record s.model).startHoldMs.setWidth 32], pend := true }
      ∧ exec .hsSettle s = .next { s with ccmd := s.ccmd ++ [0x40000000#32 ||| s.cfg.tSettleUs.setWidth 32], pend := true })
    ∧ (∀ (s : State) (rest : List Word), s.pend = true → s.crsp = 0x00000000 :: rest →
      exec .hsIdleHold s = .next { s with crsp := rest, pend := false, state := .hsDriveLow }
      ∧ exec .hsLowHold s = .next { s with crsp := rest, pend := false, state := .hsRelease }
      ∧ exec .hsSettle s = .next { s with crsp := rest, pend := false, state := .capLead })

/-- R176: `RETRY_DELAY`, both steps, and its frame. -/
def Obligations.RetryDelayIssuesAndRestarts : Prop :=
  (∀ s : State, s.pend = false →
      exec .retryDelay s = .next { s with ccmd := s.ccmd ++ [0x50000000#32 ||| s.cfg.retryDelayMs.setWidth 32], pend := true })
    ∧ (∀ (s : State) (rest : List Word), s.pend = true → s.crsp = 0x00000000 :: rest →
      exec .retryDelay s = .next { s with crsp := rest, pend := false, state := .attStart })

/-- R111, R116, R118, R201: the two states that set the direction. The issue step changes no register but `PEND`; after the ACK the pin has the direction; every
other pin's line is as before. That the ACK of `HS_RELEASE` leaves `LINE_OUT` as it was is the model's reading, a record of the last WRITE that no rule states (log 11, DEDUCED). -/
def Obligations.DirectionStatesSetTheLine : Prop :=
  (∀ s : State, s.pend = false →
      (∃ t, exec .hsDirOut s = .next t
        ∧ t = { s with ccmd := s.ccmd ++ [0x10000001#32 ||| (s.pin.setWidth 32 <<< 20)], pend := true, lines := t.lines }
        ∧ ∀ q : Pin, q ≠ s.pin → t.line q = s.line q)
      ∧ (∃ t, exec .hsRelease s = .next t
        ∧ t = { s with ccmd := s.ccmd ++ [0x10000000#32 ||| (s.pin.setWidth 32 <<< 20)], pend := true, lines := t.lines }
        ∧ ∀ q : Pin, q ≠ s.pin → t.line q = s.line q))
    ∧ (∀ (s : State) (rest : List Word), Lines.wf s.lines = true → s.pend = true → s.crsp = 0x00000000 :: rest →
      (∃ t, exec .hsDirOut s = .next t
        ∧ t = { s with crsp := rest, pend := false, state := .hsDriveHigh, lines := t.lines }
        ∧ (t.line s.pin).dir = some .output ∧ ∀ q : Pin, q ≠ s.pin → t.line q = s.line q)
      ∧ (∃ t, exec .hsRelease s = .next t
        ∧ t = { s with crsp := rest, pend := false, state := .hsSettle, lines := t.lines }
        ∧ (t.line s.pin).dir = some .input ∧ (t.line s.pin).out = (s.line s.pin).out
        ∧ ∀ q : Pin, q ≠ s.pin → t.line q = s.line q))

/-- R112, R114, R119, R202: the two states that drive the pin. The issue step changes no register but `PEND`; after the ACK a pin in Output mode drives the level; every other pin's line
is as before. -/
def Obligations.LevelStatesDriveTheLine : Prop :=
  (∀ s : State, s.pend = false →
      (∃ t, exec .hsDriveHigh s = .next t
        ∧ t = { s with ccmd := s.ccmd ++ [0x20000001#32 ||| (s.pin.setWidth 32 <<< 20)], pend := true, lines := t.lines }
        ∧ ∀ q : Pin, q ≠ s.pin → t.line q = s.line q)
      ∧ (∃ t, exec .hsDriveLow s = .next t
        ∧ t = { s with ccmd := s.ccmd ++ [0x20000000#32 ||| (s.pin.setWidth 32 <<< 20)], pend := true, lines := t.lines }
        ∧ ∀ q : Pin, q ≠ s.pin → t.line q = s.line q))
    ∧ (∀ (s : State) (rest : List Word), Lines.wf s.lines = true → s.pend = true → s.crsp = 0x00000000 :: rest →
      (∃ t, exec .hsDriveHigh s = .next t
        ∧ t = { s with crsp := rest, pend := false, state := .hsIdleHold, lines := t.lines }
        ∧ ((s.line s.pin).dir = some .output → t.line s.pin = { dir := some .output, out := some .high })
        ∧ ∀ q : Pin, q ≠ s.pin → t.line q = s.line q)
      ∧ (∃ t, exec .hsDriveLow s = .next t
        ∧ t = { s with crsp := rest, pend := false, state := .hsLowHold, lines := t.lines }
        ∧ ((s.line s.pin).dir = some .output → t.line s.pin = { dir := some .output, out := some .low })
        ∧ ∀ q : Pin, q ≠ s.pin → t.line q = s.line q))

/-- R118 to R121, R130: each command row, in the state that issues it (R23), puts its word on CCMD and sets `PEND`; no other register changes, and no other
pin's line. A `WRITE` is issued while the pin is not in Input mode (R202, U10). -/
def Obligations.CommandRowsAreIssued : Prop :=
  (∀ (s : State) (d : Direction), s.pend = false →
      (s.state = .hsDirOut ∧ d = .output) ∨ (s.state = .hsRelease ∧ d = .input) →
      ∃ t, exec (.setDir s.pin d) s = .next t
        ∧ t = { s with ccmd := s.ccmd ++ [0x10000000#32 ||| (s.pin.setWidth 32 <<< 20) ||| (dirBit d).setWidth 32],
                       pend := true, lines := t.lines }
        ∧ ∀ q : Pin, q ≠ s.pin → t.line q = s.line q)
    ∧ (∀ (s : State) (l : Level), s.pend = false → (s.line s.pin).dir ≠ some .input →
      (s.state = .hsDriveHigh ∧ l = .high) ∨ (s.state = .hsDriveLow ∧ l = .low) →
      ∃ t, exec (.write s.pin l) s = .next t
        ∧ t = { s with ccmd := s.ccmd ++ [0x20000000#32 ||| (s.pin.setWidth 32 <<< 20) ||| (levelBit l).setWidth 32],
                       pend := true, lines := t.lines }
        ∧ ∀ q : Pin, q ≠ s.pin → t.line q = s.line q)
    ∧ (∀ s : State, s.pend = false → isCaptureState s.state = true →
      exec (.waitEdge s.pin s.cfg.edgeTimeoutUs) s
        = .next { s with ccmd := s.ccmd ++ [0x30000000#32 ||| (s.pin.setWidth 32 <<< 20) ||| s.cfg.edgeTimeoutUs.setWidth 32],
                         pend := true })
    ∧ (∀ (s : State) (n : Dur), s.pend = false →
      (s.state = .hsIdleHold ∧ n = s.cfg.tIdleHoldUs) ∨ (s.state = .hsSettle ∧ n = s.cfg.tSettleUs) →
      exec (.sleepUs n) s = .next { s with ccmd := s.ccmd ++ [0x40000000#32 ||| n.setWidth 32], pend := true })
    ∧ (∀ (s : State) (n : Dur), s.pend = false →
      (s.state = .hsLowHold ∧ n = (s.cfg.record s.model).startHoldMs) ∨ (s.state = .retryDelay ∧ n = s.cfg.retryDelayMs) →
      exec (.sleepMs n) s = .next { s with ccmd := s.ccmd ++ [0x50000000#32 ||| n.setWidth 32], pend := true })

/-- The names of the stops, every operation's (the model's forms of "no transition": log 6, log 7, log 8, log 9, log 12, log 16). A host word that spells no command of the instance and a READ while
busy (R101); a command row whose word the current state does not issue (R12, R23), a `WRITE` in Input mode (U10); a result row that `ATT_DONE` does not publish now (R175); a response while no command
is outstanding (R70); a response the current state does not expect, by itself and on offer to the thirteen command states, and there a malformed one (R86 (c)). -/
def Obligations.StopsAreNamed : Prop :=
  (∀ (s : State) (w : Word) (rest : List Word), s.hcmd = w :: rest →
        (w.toNat / 2 ^ 28 ≠ 1 ∨ w.toNat / 2 ^ 10 % 2 ^ 18 ≠ 0 ∨ w.toNat / 2 ^ 8 % 4 = 3 ∨ 2 ^ s.cfg.pinW ≤ w.toNat % 2 ^ 8) →
        exec .idle s = .refused .hostWordNotACommand)
    ∧ (∀ (m : SensorModel) (p : Pin) (s : State), s.state = .idle → 2 ^ s.cfg.pinW ≤ p.toNat →
      exec (.read m p) s = .refused .hostWordNotACommand)
    ∧ (∀ (m : SensorModel) (p : Pin) (s : State), s.state ≠ .idle → exec (.read m p) s = .refused .hostPortNotReady)
    ∧ (∀ (s : State) (p : Pin) (d : Direction),
      s.pend = true ∨ p ≠ s.pin ∨ ¬((s.state = .hsDirOut ∧ d = .output) ∨ (s.state = .hsRelease ∧ d = .input)) →
      exec (.setDir p d) s = .refused .commandNotIssued)
    ∧ (∀ (s : State) (p : Pin) (l : Level),
      s.pend = true ∨ p ≠ s.pin ∨ ¬((s.state = .hsDriveHigh ∧ l = .high) ∨ (s.state = .hsDriveLow ∧ l = .low)) →
      exec (.write p l) s = .refused .commandNotIssued)
    ∧ (∀ (s : State) (l : Level), s.pend = false → (s.line s.pin).dir = some .input →
      (s.state = .hsDriveHigh ∧ l = .high) ∨ (s.state = .hsDriveLow ∧ l = .low) →
      exec (.write s.pin l) s = .refused .writeInInputMode)
    ∧ (∀ (s : State) (p : Pin) (t : Dur),
      s.pend = true ∨ p ≠ s.pin ∨ t ≠ s.cfg.edgeTimeoutUs ∨ isCaptureState s.state = false →
      exec (.waitEdge p t) s = .refused .commandNotIssued)
    ∧ (∀ (s : State) (n : Dur),
      s.pend = true ∨ ¬((s.state = .hsIdleHold ∧ n = s.cfg.tIdleHoldUs) ∨ (s.state = .hsSettle ∧ n = s.cfg.tSettleUs)) →
      exec (.sleepUs n) s = .refused .commandNotIssued)
    ∧ (∀ (s : State) (n : Dur),
      s.pend = true ∨ ¬((s.state = .hsLowHold ∧ n = (s.cfg.record s.model).startHoldMs)
        ∨ (s.state = .retryDelay ∧ n = s.cfg.retryDelayMs)) →
      exec (.sleepMs n) s = .refused .commandNotIssued)
    ∧ (∀ s : State, ¬(s.state = .attDone ∧ s.attRes = .success) → exec .resultReading s = .refused .resultNotPublished)
    ∧ (∀ (s : State) (k : AttRes) (n : BitVec 8),
      ¬(s.state = .attDone ∧ s.attRes ≠ .success ∧ s.attempts = s.cfg.attemptCap ∧ s.lastKind = s.attRes
        ∧ k = s.lastKind ∧ n = s.attempts) →
      exec (.resultReadError k n) s = .refused .resultNotPublished)
    ∧ (∀ (s : State) (l : Level) (d : Dur), s.pend = false →
      exec .ack s = .refused .responsePortNotReady ∧ exec (.edge l d) s = .refused .responsePortNotReady
        ∧ exec .timeout s = .refused .responsePortNotReady)
    ∧ (∀ s : State, s.pend = true →
      s.state ∉ [SeqState.hsDirOut, .hsDriveHigh, .hsIdleHold, .hsDriveLow, .hsLowHold, .hsRelease, .hsSettle, .retryDelay] →
      exec .ack s = .fault .unexpectedResponse)
    ∧ (∀ (s : State) (l : Level) (d : Dur), s.pend = true → isCaptureState s.state = false → d.toNat < 2 ^ s.cfg.durW →
      exec (.edge l d) s = .fault .unexpectedResponse)
    ∧ (∀ (s : State) (l : Level) (d : Dur), s.pend = true → 2 ^ s.cfg.durW ≤ d.toNat →
      exec (.edge l d) s = .fault .malformedResponse)
    ∧ (∀ s : State, s.pend = true → isCaptureState s.state = false → exec .timeout s = .fault .unexpectedResponse)
    ∧ (∀ (s : State) (w : Word) (rest : List Word), isCommandState s.state = true → s.pend = true → s.crsp = w :: rest →
      (w.toNat / 2 ^ 30 = 3 ∨ w.toNat / 2 ^ 21 % 2 ^ 9 ≠ 0 ∨ (w.toNat / 2 ^ 30 ≠ 1 ∧ w.toNat % 2 ^ 21 ≠ 0)
        ∨ (w.toNat / 2 ^ 30 = 1 ∧ 2 ^ s.cfg.durW ≤ w.toNat % 2 ^ 20)) →
      exec (microOp s.state) s = .fault .malformedResponse)
    ∧ (∀ (s : State) (w : Word) (rest : List Word), isCommandState s.state = true → s.pend = true → s.crsp = w :: rest →
      (isCaptureState s.state = true ∧ w = 0x00000000)
        ∨ (isCaptureState s.state = false ∧ (w = 0x80000000 ∨ ∃ (l : Level) (d : Dur), d.toNat < 2 ^ s.cfg.durW
            ∧ w = 0x40000000#32 ||| ((levelBit l).setWidth 32 <<< 20) ||| d.setWidth 32)) →
      exec (microOp s.state) s = .fault .unexpectedResponse)

/-- R122: ACK completes the command of the eight states that issue SET_DIR, WRITE or a sleep, moves to the successor R23 names, and touches no other register and no other
pin's line; in every other state it is not expected, so that there is no next state. -/
def Obligations.AckAdvances : Prop :=
  (∀ (s : State) (q : SeqState), s.pend = true →
      (s.state, q) ∈ [(SeqState.hsDirOut, SeqState.hsDriveHigh), (.hsDriveHigh, .hsIdleHold), (.hsIdleHold, .hsDriveLow),
        (.hsDriveLow, .hsLowHold), (.hsLowHold, .hsRelease), (.hsRelease, .hsSettle), (.hsSettle, .capLead),
        (.retryDelay, .attStart)] →
      ∃ t, exec .ack s = .next t ∧ t = { s with pend := false, state := q, lines := t.lines }
        ∧ (∀ p : Pin, p ≠ s.pin → t.line p = s.line p)
        ∧ (s.state ∈ [SeqState.hsIdleHold, .hsLowHold, .hsSettle, .retryDelay] → t.lines = s.lines))
    ∧ (∀ s t : State,
      s.state ∉ [SeqState.hsDirOut, .hsDriveHigh, .hsIdleHold, .hsDriveLow, .hsLowHold, .hsRelease, .hsSettle, .retryDelay] →
      exec .ack s ≠ .next t)

/-- R123: states 2 to 8 never call `attempt_fail`, and a collaborator that does not answer leaves the machine where it is. -/
def Obligations.HandshakeNeverFails : Prop :=
  ∀ s t : State,
    s.state ∈ [SeqState.hsDirOut, .hsDriveHigh, .hsIdleHold, .hsDriveLow, .hsLowHold, .hsRelease, .hsSettle] →
    step s = .next t → t.state ≠ .attDone ∧ t.attRes = s.attRes ∧ (s.pend = true → s.crsp = [] → t = s)

/-- R124: the command stream of one handshake is exactly these seven words, in this order, for every legal configuration, model and pin. -/
def Obligations.HandshakeStream : Prop :=
  ∀ (s : State) (rest : List Word), s.cfg.wf = true → s.state = .attStart → s.pend = false →
    s.crsp = List.replicate 7 0x00000000 ++ rest →
    ∃ t, Sys2Proof.core.run 15 s = .next t ∧ t.state = .capLead ∧ t.pend = false ∧ t.crsp = rest
      ∧ t.attempts = s.attempts + 1 ∧ t.sr = 0 ∧ t.bitcnt = 0 ∧ t.trace = []
      ∧ t.ccmd = s.ccmd ++
        [0x10000001#32 ||| (s.pin.setWidth 32 <<< 20), 0x20000001#32 ||| (s.pin.setWidth 32 <<< 20),
         0x40000000#32 ||| s.cfg.tIdleHoldUs.setWidth 32, 0x20000000#32 ||| (s.pin.setWidth 32 <<< 20),
         0x50000000#32 ||| (s.cfg.record s.model).startHoldMs.setWidth 32, 0x10000000#32 ||| (s.pin.setWidth 32 <<< 20),
         0x40000000#32 ||| s.cfg.tSettleUs.setWidth 32]

/-! ## The capture -/

/-- R130 and the common issue step of the five capture states, and their frame: a WAIT_EDGE is issued with `PIN` and `EDGE_TIMEOUT_US` in those states, and over every step in no other. -/
def Obligations.CaptureStatesIssueWaitEdge : Prop :=
  (∀ s : State, s.pend = false → isCaptureState s.state = true →
    exec (microOp s.state) s
      = .next { s with ccmd := s.ccmd ++ [0x30000000#32 ||| (s.pin.setWidth 32 <<< 20) ||| s.cfg.edgeTimeoutUs.setWidth 32],
                       pend := true })
    ∧ (∀ (s t : State) (p : Pin) (d : Dur), step s = .next t → t.ccmd = s.ccmd ++ [encode (.waitEdge p d)] →
      isCaptureState s.state = true ∧ p = s.pin ∧ d = s.cfg.edgeTimeoutUs)

/-- R134 to R137: the four capture states that shift nothing in, on every EDGE (its duration of the instance's `DUR_W` bits, R51) and on TIMEOUT, and their frame. -/
def Obligations.CaptureSkipsAndChecksLevels : Prop :=
  (∀ (s : State) (l : Level) (d : Dur) (rest : List Word), s.pend = true → d.toNat < 2 ^ s.cfg.durW →
      s.crsp = (0x40000000#32 ||| ((levelBit l).setWidth 32 <<< 20) ||| d.setWidth 32) :: rest →
      exec .capLead s = .next { s with crsp := rest, pend := false, trace := s.trace ++ [⟨l, d⟩], state := .capAckLow }
      ∧ exec .capAckLow s = .next (if l = .low
          then { s with crsp := rest, pend := false, trace := s.trace ++ [⟨l, d⟩], state := .capAckHigh }
          else { s with crsp := rest, pend := false, trace := s.trace ++ [⟨l, d⟩], attRes := .timeout, state := .attDone })
      ∧ exec .capAckHigh s = .next (if l = .high
          then { s with crsp := rest, pend := false, trace := s.trace ++ [⟨l, d⟩], state := .capBitLow }
          else { s with crsp := rest, pend := false, trace := s.trace ++ [⟨l, d⟩], attRes := .timeout, state := .attDone })
      ∧ exec .capBitLow s = .next (if l = .low
          then { s with crsp := rest, pend := false, trace := s.trace ++ [⟨l, d⟩], state := .capBitHigh }
          else { s with crsp := rest, pend := false, trace := s.trace ++ [⟨l, d⟩], attRes := .timeout, state := .attDone }))
    ∧ (∀ (s : State) (rest : List Word), s.pend = true → s.crsp = 0x80000000 :: rest →
      exec .capLead s = .next { s with crsp := rest, pend := false, attRes := .timeout, state := .attDone }
      ∧ exec .capAckLow s = .next { s with crsp := rest, pend := false, attRes := .timeout, state := .attDone }
      ∧ exec .capAckHigh s = .next { s with crsp := rest, pend := false, attRes := .timeout, state := .attDone }
      ∧ exec .capBitLow s = .next { s with crsp := rest, pend := false, attRes := .timeout, state := .attDone })

/-- R138 to R140: `CAP_BIT_HIGH` on every EDGE (its duration of the instance's `DUR_W` bits, R51) and on TIMEOUT, with the bit by the threshold rule and the shift written out, and its frame. -/
def Obligations.BitShiftedIn : Prop :=
  (∀ (s : State) (d : Dur) (rest : List Word), s.pend = true → d.toNat < 2 ^ s.cfg.durW →
      s.crsp = (0x40100000#32 ||| d.setWidth 32) :: rest →
      ∃ t, exec .capBitHigh s = .next t
        ∧ t = { s with crsp := rest, pend := false, trace := s.trace ++ [⟨.high, d⟩], sr := t.sr, bitcnt := s.bitcnt + 1,
                       state := if s.bitcnt = 39 then .check else .capBitLow }
        ∧ t.sr.toNat = (2 * s.sr.toNat
            + (if (s.cfg.record s.model).bitThresholdUs < d then 1
               else if d < (s.cfg.record s.model).bitThresholdUs then 0
               else if s.cfg.tieIsOne then 1 else 0)) % 2 ^ 40)
    ∧ (∀ (s : State) (d : Dur) (rest : List Word), s.pend = true → d.toNat < 2 ^ s.cfg.durW →
      s.crsp = (0x40000000#32 ||| d.setWidth 32) :: rest →
      exec .capBitHigh s
        = .next { s with crsp := rest, pend := false, trace := s.trace ++ [⟨.low, d⟩], attRes := .timeout, state := .attDone })
    ∧ (∀ (s : State) (rest : List Word), s.pend = true → s.crsp = 0x80000000 :: rest →
      exec .capBitHigh s = .next { s with crsp := rest, pend := false, attRes := .timeout, state := .attDone })

/-- R132: an EDGE (its duration of the instance's `DUR_W` bits, R51), in whichever capture state it is consumed, is appended to `TRACE`; the attempt goes on or fails; apart from `SR` and `BITCNT` in `CAP_BIT_HIGH` no other
register changes. In a state that does not await it, it is not expected, so that there is no next state. -/
def Obligations.EdgeConsumed : Prop :=
  (∀ (s : State) (l : Level) (d : Dur), s.pend = true → isCaptureState s.state = true → d.toNat < 2 ^ s.cfg.durW →
      ∃ t, exec (.edge l d) s = .next t ∧ t.trace = s.trace ++ [⟨l, d⟩] ∧ t.state ∈ successors s.state
        ∧ t = { s with pend := false, trace := t.trace, state := t.state, attRes := t.attRes, sr := t.sr, bitcnt := t.bitcnt }
        ∧ (t.state = .attDone ↔ (s.state ∈ [SeqState.capAckLow, .capBitLow] ∧ l = .high)
            ∨ (s.state ∈ [SeqState.capAckHigh, .capBitHigh] ∧ l = .low))
        ∧ (t.state = .attDone → t.attRes = .timeout) ∧ (t.state ≠ .attDone → t.attRes = s.attRes)
        ∧ (s.state ≠ .capBitHigh ∨ l = .low → t.sr = s.sr ∧ t.bitcnt = s.bitcnt))
    ∧ (∀ (s t : State) (l : Level) (d : Dur), isCaptureState s.state = false → exec (.edge l d) s ≠ .next t)

/-- R133: "the decoder abandons the attempt and reports Timeout", and nothing else changes, in whichever capture state; elsewhere it is not expected, so that there is no next state. -/
def Obligations.TimeoutAbandonsTheAttempt : Prop :=
  (∀ s : State, s.pend = true → isCaptureState s.state = true →
      exec .timeout s = .next { s with pend := false, attRes := .timeout, state := .attDone })
    ∧ (∀ s t : State, isCaptureState s.state = false → exec .timeout s ≠ .next t)

/-- R145, R141: from the start of a capture the sequencer computes exactly the pure function `capture` on any answers of the instance's widths: it issues as many WAIT_EDGE commands as the function looks at answers,
ends in `CHECK` with the function's frame in `SR`, or fails with `Timeout`, and leaves the answers it was not asked for. -/
def Obligations.SequencerComputesCapture : Prop :=
  ∀ (s : State) (tr : List Response) (rest : List Word),
    s.cfg.wf = true → s.state = .capLead → s.pend = false → s.sr = 0 → s.bitcnt = 0 →
    (∀ r ∈ tr, r ≠ .ack ∧ (durationOf r).toNat < 2 ^ s.cfg.durW) → s.crsp = tr.map responseWord ++ rest →
    ∀ res : CaptureResult, capture s.cfg s.model tr = some res →
    ∃ t, Sys2Proof.core.run (2 * captureLength tr) s = .next t
      ∧ (match res with
          | .timeout => t.state = .attDone ∧ t.attRes = .timeout
          | .frame f => t.state = .check ∧ t.sr = f ∧ t.bitcnt = 40)
      ∧ t.pend = false
      ∧ t.ccmd = s.ccmd ++ List.replicate (captureLength tr)
          (0x30000000#32 ||| (s.pin.setWidth 32 <<< 20) ||| s.cfg.edgeTimeoutUs.setWidth 32)
      ∧ t.crsp = (tr.drop (captureLength tr)).map responseWord ++ rest

/-! ## Checksum, conversion, gate -/

/-- R150, R151: `CHECK` on the five bytes of `SR`, written as numbers, and its frame. -/
def Obligations.ChecksumDecides : Prop :=
  ∀ s : State, exec .check s = .next
    (if (s.sr.toNat / 2 ^ 32 + s.sr.toNat / 2 ^ 24 % 256 + s.sr.toNat / 2 ^ 16 % 256 + s.sr.toNat / 2 ^ 8 % 256) % 256
        = s.sr.toNat % 256
      then { s with state := .convert } else { s with attRes := .checksumMismatch, state := .attDone })

/-- R152 (a), (b): with the data bytes fixed exactly one checksum byte passes; with the checksum byte and three data bytes fixed, no second value of the fourth passes. -/
def Obligations.ChecksumDetectsOneByte : Prop :=
  (∀ s t : State, s.sr.toNat / 2 ^ 8 = t.sr.toNat / 2 ^ 8 → s.sr ≠ t.sr →
      exec .check s = .next { s with state := .convert } →
      exec .check t = .next { t with attRes := .checksumMismatch, state := .attDone })
    ∧ (∀ (s t : State) (j : Nat), 1 ≤ j → j ≤ 4 →
      s.sr.toNat / 2 ^ (8 * j + 8) = t.sr.toNat / 2 ^ (8 * j + 8) → s.sr.toNat % 2 ^ (8 * j) = t.sr.toNat % 2 ^ (8 * j) →
      s.sr ≠ t.sr → exec .check s = .next { s with state := .convert } →
      exec .check t = .next { t with attRes := .checksumMismatch, state := .attDone })

/-- R155, R156: `CONVERT` for a model with `CONV_SEL = TENTHS`: the tenths as numbers, the floats of them, and its frame. -/
def Obligations.ConvertTenths : Prop :=
  ∀ s : State, (s.cfg.record s.model).convSel = .tenths →
    ∃ t, exec .convert s = .next t
      ∧ t = { s with h10 := t.h10, tNeg := t.tNeg, tMag := t.tMag, humF := t.humF, tempF := t.tempF, state := .gate }
      ∧ t.h10.toNat = s.sr.toNat / 2 ^ 24
      ∧ t.tNeg.toNat = s.sr.toNat / 2 ^ 23 % 2
      ∧ t.tMag.toNat = s.sr.toNat / 2 ^ 8 % 2 ^ 15
      ∧ t.humF = toFloat s.cfg.floatFmt 0 t.h10.toNat
      ∧ t.tempF = toFloat s.cfg.floatFmt t.tNeg t.tMag.toNat

/-- R155, R157, R158: `CONVERT` for a model with `CONV_SEL = WHOLE`, under each value of the two policies, and its frame. -/
def Obligations.ConvertWhole : Prop :=
  ∀ s : State, (s.cfg.record s.model).convSel = .whole →
    ∃ t, exec .convert s = .next t
      ∧ t = { s with h10 := t.h10, tNeg := t.tNeg, tMag := t.tMag, humF := t.humF, tempF := t.tempF, state := .gate }
      ∧ t.h10.toNat = 10 * (s.sr.toNat / 2 ^ 32) + (if s.cfg.dht11HFrac then s.sr.toNat / 2 ^ 24 % 256 else 0)
      ∧ t.tNeg.toNat = (if s.cfg.dht11TSign then s.sr.toNat / 2 ^ 15 % 2 else 0)
      ∧ t.tMag.toNat = 10 * (s.sr.toNat / 2 ^ 16 % 256)
      ∧ t.humF = toFloat s.cfg.floatFmt 0 t.h10.toNat
      ∧ t.tempF = toFloat s.cfg.floatFmt t.tNeg t.tMag.toNat

/-- R161 to R163 (a), R166: for every count of tenths the float has the given sign and is the normal number nearest to `n / 10`, strictly nearest, so that no tie occurs: with
significand `M` and biased exponent `E`, the distance of `M * 2^(E - bias - frac)` from `n / 10` is less than half of `2^(E - bias - frac)`. -/
def Obligations.FloatIsNearest : Prop :=
  (∀ (sg : BitVec 1) (n : Nat), 1 ≤ n → n ≤ 65535 → ∃ b : BitVec 32, toFloat .binary32 sg n = .binary32 b
      ∧ bits b 31 31 = sg ∧ 123 ≤ (bits b 30 23).toNat ∧ (bits b 30 23).toNat ≤ 139
      ∧ 20 * ((2 ^ 23 + (bits b 22 0).toNat) * 2 ^ (bits b 30 23).toNat) < 2 * (n * 2 ^ 150) + 10 * 2 ^ (bits b 30 23).toNat
      ∧ 2 * (n * 2 ^ 150) < 20 * ((2 ^ 23 + (bits b 22 0).toNat) * 2 ^ (bits b 30 23).toNat) + 10 * 2 ^ (bits b 30 23).toNat)
    ∧ (∀ (sg : BitVec 1) (n : Nat), 1 ≤ n → n ≤ 65535 → ∃ b : BitVec 64, toFloat .binary64 sg n = .binary64 b
      ∧ bits b 63 63 = sg ∧ 1019 ≤ (bits b 62 52).toNat ∧ (bits b 62 52).toNat ≤ 1035
      ∧ 20 * ((2 ^ 52 + (bits b 51 0).toNat) * 2 ^ (bits b 62 52).toNat) < 2 * (n * 2 ^ 1075) + 10 * 2 ^ (bits b 62 52).toNat
      ∧ 2 * (n * 2 ^ 1075) < 20 * ((2 ^ 52 + (bits b 51 0).toNat) * 2 ^ (bits b 62 52).toNat) + 10 * 2 ^ (bits b 62 52).toNat)
    ∧ (∀ sg : BitVec 1, toFloat .binary32 sg 0 = .binary32 (sg.setWidth 32 <<< 31)
      ∧ toFloat .binary64 sg 0 = .binary64 (sg.setWidth 64 <<< 63))

/-- R163 (c): `fl` is strictly monotone on 0..65535, in both formats. -/
def Obligations.FloatMonotone : Prop :=
  ∀ m n : Nat, m < n → n ≤ 65535 → (mag32 m).toNat < (mag32 n).toNat ∧ (mag64 m).toNat < (mag64 n).toNat

/-- R167: `GATE` tests the two float bounds, and its frame. -/
def Obligations.GateDecides : Prop :=
  ∀ s : State, exec .gate s = .next
    (if humInRange s.humF = true ∧ tempInRange s.tempF = true then { s with attRes := .success, state := .attDone }
      else { s with attRes := .implausibleValue, state := .attDone })

/-- R169 (R164, R168): on converted values the float gate is the integer gate, in both formats; negative zero passes. -/
def Obligations.GateIsIntegerGate : Prop :=
  ∀ s : State, s.humF = toFloat s.cfg.floatFmt 0 s.h10.toNat → s.tempF = toFloat s.cfg.floatFmt s.tNeg s.tMag.toNat →
    exec .gate s = .next
      (if s.h10.toNat ≤ 1000 ∧ ((s.tNeg = 0 ∧ s.tMag.toNat ≤ 800) ∨ (s.tNeg = 1 ∧ s.tMag.toNat ≤ 400))
        then { s with attRes := .success, state := .attDone } else { s with attRes := .implausibleValue, state := .attDone })

/-- R145 (its last sentence), R196: from `CHECK` the machine reaches `ATT_DONE` in at most three steps with exactly the result of the pure function on the frame, checksum before
gate, and the operands, `SR` and the ports untouched. -/
def Obligations.FrameResultComputed : Prop :=
  ∀ s : State, s.cfg.wf = true → s.state = .check → s.pend = false →
    ∃ (n : Nat) (t : State), n ≤ 3 ∧ Sys2Proof.core.run n s = .next t ∧ t.state = .attDone
      ∧ t.attRes = frameResult s.cfg s.model s.sr
      ∧ t.sr = s.sr ∧ t.model = s.model ∧ t.pin = s.pin ∧ t.attempts = s.attempts ∧ t.rs = s.rs
      ∧ t.ccmd = s.ccmd ∧ t.crsp = s.crsp ∧ t.lines = s.lines

/-- R145 (its last sentence), R124, R196: one attempt as a whole. From `ATT_START`, when the collaborator acknowledges the seven handshake commands and then gives the answers `tr`, of the instance's widths,
the machine comes to `ATT_DONE` with exactly the result of the pure functions: `Timeout` where `capture` says so, else the validation, conversion and gate of its frame. It issues seven handshake
commands and as many WAIT_EDGE as `capture` looks at answers, and it leaves the answers it was not asked for. -/
def Obligations.AttemptComputesItsResult : Prop :=
  ∀ (s : State) (tr : List Response) (rest : List Word) (res : CaptureResult),
    s.cfg.wf = true → s.state = .attStart → s.pend = false →
    (∀ r ∈ tr, r ≠ .ack ∧ (durationOf r).toNat < 2 ^ s.cfg.durW) →
    s.crsp = List.replicate 7 0x00000000 ++ (tr.map responseWord ++ rest) → capture s.cfg s.model tr = some res →
    ∃ (n : Nat) (t : State), Sys2Proof.core.run n s = .next t ∧ t.state = .attDone ∧ t.pend = false
      ∧ t.attRes = (match res with
          | .timeout => .timeout
          | .frame f => frameResult s.cfg s.model f)
      ∧ t.attempts = s.attempts + 1 ∧ t.model = s.model ∧ t.pin = s.pin ∧ t.rs = s.rs
      ∧ t.ccmd.length = s.ccmd.length + 7 + captureLength tr
      ∧ t.crsp = (tr.drop (captureLength tr)).map responseWord ++ rest

/-! ## Errors and the retry -/

/-- R194, R191 to R193: an attempt fails only in the states the rules name, with the kind they name, and nothing else changes but what the `respond` step has consumed. -/
def Obligations.AttemptFailChangesNothingElse : Prop :=
  ∀ s t : State, pendInv s = true → step s = .next t → s.state ≠ .attDone → t.state = .attDone → t.attRes ≠ .success →
    t = { s with attRes := t.attRes, state := .attDone, pend := false, trace := t.trace, crsp := t.crsp }
      ∧ (t.attRes = .timeout ↔ isCaptureState s.state = true)
      ∧ (t.attRes = .checksumMismatch ↔ s.state = .check)
      ∧ (t.attRes = .implausibleValue ↔ s.state = .gate)
      ∧ (isCaptureState s.state = false → t.trace = s.trace ∧ t.crsp = s.crsp)

/-- R175: `ATT_DONE` publishes the reading, publishes the error at the cap, or goes to the retry delay, and its frame. -/
def Obligations.AttemptDoneDecides : Prop :=
  (∀ s : State, s.attRes = .success →
      exec .attDone s = .next { s with resHum := some s.humF, resTemp := some s.tempF, rs := 0x80000000, state := .idle })
    ∧ (∀ s : State, s.attRes ≠ .success → s.attempts = s.cfg.attemptCap →
      exec .attDone s = .next { s with
          lastKind := s.attRes,
          rs := 0xC0000000#32 ||| ((attResCode s.attRes).setWidth 32 <<< 8) ||| s.attempts.setWidth 32,
          resHum := none, resTemp := none, state := .idle })
    ∧ (∀ s : State, s.attRes ≠ .success → s.attempts ≠ s.cfg.attemptCap →
      exec .attDone s = .next { s with lastKind := s.attRes, state := .retryDelay })

/-- R179: at `ATT_DONE` the machine does what the pure orchestrator does with the attempt's result: it looks at nothing of the attempt but `ATT_RES` and the count. -/
def Obligations.OrchestratorFollowed : Prop :=
  ∀ s : State, ∃ t, exec .attDone s = .next t
    ∧ (orchestrate s.cfg.attemptCap.toNat s.attempts.toNat [s.attRes] = some (.reading s.attempts.toNat)
        ↔ t.state = .idle ∧ t.rs = 0x80000000)
    ∧ (∀ k : AttRes, orchestrate s.cfg.attemptCap.toNat s.attempts.toNat [s.attRes] = some (.readError k s.attempts.toNat)
        ↔ t.state = .idle ∧ k = s.attRes ∧ k ≠ .success
          ∧ t.rs = 0xC0000000#32 ||| ((attResCode k).setWidth 32 <<< 8) ||| s.attempts.setWidth 32)
    ∧ (orchestrate s.cfg.attemptCap.toNat s.attempts.toNat [s.attRes] = none ↔ t.state = .retryDelay)

/-! ## The step -/

/-- A step runs the decoded operation (R12, R21, R23): the micro-operation whose code `STATE` holds; and it is the operation whose word it takes from HCMD or CRSP, at the state that word has
left, or issues on CCMD, or publishes. That a word's own row runs as the step that transfers, issues or publishes it, `READ_ERROR` after `LAST_KIND` is written, is the model's form (log 9); a `WRITE`
row refuses in Input mode (log 12), so that only for a `WRITE` the pin must not be in that mode; and a word is one of the instance's widths (log 16). -/
def Obligations.StepRunsTheDecodedOperation : Prop :=
  (∀ (s : State) (i : Instr), s.cfg.wf = true → decode .ustate (0#27 ++ stateCode s.state) = .ok i → step s = exec i s)
    ∧ (∀ (s : State) (w : Word) (rest : List Word) (i : Instr), s.cfg.wf = true → s.state = .idle → s.hcmd = w :: rest →
      decodeFor s.cfg .hcmd w = .ok i → step s = exec i { s with hcmd := rest })
    ∧ (∀ (s : State) (w : Word) (rest : List Word) (i : Instr), s.cfg.wf = true → isCommandState s.state = true → s.pend = true →
      s.crsp = w :: rest → decodeFor s.cfg .crsp w = .ok i → step s = exec i { s with crsp := rest })
    ∧ (∀ (s : State) (i : Instr), s.cfg.wf = true → s.pend = false → commandOf s = some i →
      (∀ l : Level, i = .write s.pin l → (s.line s.pin).dir ≠ some .input) → step s = exec i s)
    ∧ (∀ s : State, s.cfg.wf = true → s.state = .attDone → s.attRes = .success → step s = exec .resultReading s)
    ∧ (∀ s : State, s.cfg.wf = true → s.state = .attDone → s.attRes ≠ .success → s.attempts = s.cfg.attemptCap →
      step s = exec (.resultReadError s.attRes s.attempts) { s with lastKind := s.attRes })

/-- R9: a configuration that breaks a constraint is refused, not run. -/
def Obligations.IllFormedConfigurationRefused : Prop :=
  ∀ s : State,
    s.cfg.dht11.startHoldMs.toNat < 18 ∨ s.cfg.dht22.startHoldMs.toNat < 1 ∨ s.cfg.am2302.startHoldMs.toNat < 1
      ∨ s.cfg.dht22 ≠ s.cfg.am2302 ∨ s.cfg.attemptCap = 0
      ∨ (∃ m : SensorModel, (s.cfg.record m).bitThresholdUs = 0
          ∨ s.cfg.edgeTimeoutUs.toNat ≤ (s.cfg.record m).bitThresholdUs.toNat) →
    step s = .refused .illFormedConfiguration

/-- R23: from each state a step leads only to the state itself or to a successor the table names. -/
def Obligations.SuccessorsAsTabulated : Prop :=
  ∀ s t : State, step s = .next t → t.state = s.state ∨ t.state ∈ successors s.state

/-- R86 (c), R205: while a command is outstanding, a response of a kind its command does not allow, or a malformed one, leaves the block without a step; an allowed one is consumed and
clears `PEND`. R86 (c) calls a word malformed by its kind and its must-be-zero bits; that an EDGE whose duration does not fit a `DUR_W` below 20 is malformed too is the model's choice (log 16). -/
def Obligations.OnlyAllowedResponsesConsumed : Prop :=
  ∀ s : State, s.cfg.wf = true → isCommandState s.state = true → s.pend = true → s.crsp ≠ [] →
    (collaboratorReady s = false → ∀ t, step s ≠ .next t)
    ∧ (collaboratorReady s = true → ∃ t, step s = .next t ∧ t.pend = false ∧ s.crsp = s.crsp.take 1 ++ t.crsp
        ∧ t.ccmd = s.ccmd ∧ t.state ≠ s.state)

/-- Waiting (R105, R209, R223, U11): in `IDLE` with no host word on offer, and in a command state whose response is not there yet, a step changes nothing. That it is a step at all is the
model's form (log 5). -/
def Obligations.WaitingChangesNothing : Prop :=
  (∀ s : State, s.cfg.wf = true → s.state = .idle → s.hcmd = [] → step s = .next s)
    ∧ (∀ s : State, s.cfg.wf = true → isCommandState s.state = true → s.pend = true → s.crsp = [] → step s = .next s)

/-- R12, R205: under the two input agents' contract the machine never stops. In `IDLE` with nothing on HCMD no step is enabled (R105); that the model answers a next state there, the same
one, is its form of waiting (log 5, DESIGN CHOICE). -/
def Obligations.ContractKeepsItRunning : Prop :=
  ∀ s : State, s.cfg.wf = true → pendInv s = true → collaboratorReady s = true → (hostReady s = true ∨ s.hcmd = []) →
    ∃ t, step s = .next t

/-- R61, R22: one command outstanding: a step issues a command exactly when it raises `PEND`, the one R23 names for the state; otherwise the command trace stays as it is. -/
def Obligations.OneCommandOutstanding : Prop :=
  ∀ s t : State, step s = .next t →
    (s.pend = false ∧ t.pend = true ∧ ∃ c, commandOf s = some c ∧ t.ccmd = s.ccmd ++ [encode c] ∧ t.state = s.state)
      ∨ (t.ccmd = s.ccmd ∧ (s.pend = false → t.pend = false))

/-- R44: who writes what, over every step: each register is written only by the states the access summary names. -/
def Obligations.AccessSummary : Prop :=
  ∀ s t : State, step s = .next t →
    (s.state ≠ .idle → t.model = s.model ∧ t.pin = s.pin)
    ∧ (s.state ≠ .attStart → s.state ≠ .capBitHigh → t.sr = s.sr ∧ t.bitcnt = s.bitcnt)
    ∧ (s.state ≠ .convert → t.h10 = s.h10 ∧ t.tNeg = s.tNeg ∧ t.tMag = s.tMag ∧ t.humF = s.humF ∧ t.tempF = s.tempF)
    ∧ (isCaptureState s.state = false → s.state ≠ .check → s.state ≠ .gate → t.attRes = s.attRes)
    ∧ (s.state ≠ .idle → s.state ≠ .attStart → t.attempts = s.attempts)
    ∧ (s.state ≠ .attDone → t.lastKind = s.lastKind)
    ∧ (s.state ≠ .idle → s.state ≠ .attDone → t.rs = s.rs ∧ t.resHum = s.resHum ∧ t.resTemp = s.resTemp)
    ∧ t.cfg = s.cfg

/-- R52, R118, R119: over every step, the line of a pin other than `PIN` is as before, and the line of `PIN` changes only in the four handshake states that command it. -/
def Obligations.OnlyTheOwnedLineChanges : Prop :=
  ∀ s t : State, step s = .next t →
    (∀ q : Pin, q ≠ s.pin → t.line q = s.line q)
      ∧ (s.state ∉ [SeqState.hsDirOut, .hsDriveHigh, .hsDriveLow, .hsRelease] → t.lines = s.lines)

/-! ## Reset and the invariants -/

/-- R215: the values R42 gives after reset, for every configuration (an instance's own constants; the default one is `State.reset`); the line is unknown and no command has been issued; and the first
operation after reset, whatever the host and the collaborator offer, can only be an accepted READ. That `State.reset` has the default configuration is the model's choice (log 2, DESIGN CHOICE), and that
a first step may change nothing is its form of waiting (log 5, DESIGN CHOICE). -/
def Obligations.ResetValues : Prop :=
  State.reset = State.resetWith Config.default
    ∧ (∀ c : Config,
      (State.resetWith c).state = .idle ∧ (State.resetWith c).pend = false ∧ (State.resetWith c).attempts = 0
      ∧ (State.resetWith c).rs = 0x00000000 ∧ (State.resetWith c).resHum = none ∧ (State.resetWith c).resTemp = none
      ∧ (State.resetWith c).trace = [] ∧ (State.resetWith c).ccmd = [] ∧ (State.resetWith c).cfg = c
      ∧ ∀ p : Pin, (State.resetWith c).line p = { dir := none, out := none })
    ∧ (∀ (c : Config) (hc cr : List Word) (t : State), step { State.resetWith c with hcmd := hc, crsp := cr } = .next t →
      t = { State.resetWith c with hcmd := hc, crsp := cr }
        ∨ ∃ (m : SensorModel) (p : Pin) (rest : List Word), hc = encode (.read m p) :: rest
          ∧ exec (.read m p) { State.resetWith c with hcmd := rest, crsp := cr } = .next t)

/-- The five invariants hold after reset, for every configuration (R42, R215). That `PIN` holds 0, which fits every `PIN_W`, is the model's choice (log 1). -/
def Obligations.ResetMeetsTheInvariants : Prop :=
  ∀ c : Config, pendInv (State.resetWith c) = true ∧ countInv (State.resetWith c) = true
    ∧ resultInv (State.resetWith c) = true ∧ lineInv (State.resetWith c) = true
    ∧ widthInv (State.resetWith c) = true

/-- R22: "In every internal state and in IDLE, PEND = 0", kept by every step. -/
def Obligations.PendInvariantKept : Prop :=
  ∀ s t : State, pendInv s = true → step s = .next t → pendInv t = true

/-- R27, R34, R38, R131, R140, R143: the counters, the partial frame and the number of segments, kept by every step. -/
def Obligations.CountInvariantKept : Prop :=
  ∀ s t : State, countInv s = true → step s = .next t → countInv t = true

/-- R36, R153, R170: no result while a read runs; every published reading is the conversion of a frame that passed `CHECK` and lies in the plausible range; every error names a kind and
the cap. Kept by every step. -/
def Obligations.ResultInvariantKept : Prop :=
  ∀ s t : State, resultInv s = true → step s = .next t → resultInv t = true

/-- R39, R119, R224: the line is canonical, driven only between `HS_DIR_OUT` and `HS_RELEASE`, and in Input mode from the release on. Kept by every step. -/
def Obligations.LineInvariantKept : Prop :=
  ∀ s t : State, pendInv s = true → lineInv s = true → step s = .next t → lineInv t = true

/-- R41, R43: what a later step does depends on the live registers alone: no unspecified reset value and no leftover of an earlier attempt or read is ever observed, and the line is never
read back (R52). -/
def Obligations.OnlyLiveStateMatters : Prop :=
  ∀ s s' t : State, liveAgree s t = true → step s = .next s' → ∃ t', step t = .next t' ∧ liveAgree s' t' = true

/-! ## Bounds -/

/-- R178: while a read runs and the collaborator answers, every step brings the result nearer: the bound on the steps left falls strictly. -/
def Obligations.EveryStepBringsTheResultNearer : Prop :=
  ∀ s : State, s.cfg.wf = true → countInv s = true → pendInv s = true → s.state ≠ .idle → collaboratorReady s = true →
    ∃ t, step s = .next t ∧ stepsLeft t < stepsLeft s

/-- R178: a read issues at most `ATTEMPT_CAP * 90 + (ATTEMPT_CAP - 1)` commands: that is the bound right after the accept, and no step lets the commands issued and the bound on those left grow. -/
def Obligations.CommandsBounded : Prop :=
  (∀ (s : State) (m : SensorModel) (p : Pin), s.state = .idle → p.toNat < 2 ^ s.cfg.pinW →
      ∃ t, exec (.read m p) s = .next t
        ∧ commandsLeft t = s.cfg.attemptCap.toNat * 90 + (s.cfg.attemptCap.toNat - 1))
    ∧ (∀ s t : State, countInv s = true → pendInv s = true → s.state ≠ .idle → step s = .next t →
      commandsLeft t + t.ccmd.length ≤ commandsLeft s + s.ccmd.length)

/-- R124, R177: the number of handshakes in the command trace equals the number of attempts made. -/
def Obligations.HandshakesCountAttempts : Prop :=
  ∀ s t : State, countInv s = true → pendInv s = true → s.state ≠ .idle → step s = .next t →
    handshakes t + attemptsBegun s = handshakes s + attemptsBegun t

/-! ## The widths of an instance -/

/-- R8, R71 to R73: the decoder of an instance. With the default widths it reads every word of the formats; with others it reads a READ, an EDGE, a WAIT_EDGE exactly where the operands are numbers of
`PIN_W` and `DUR_W` bits, zero-extended (R71, R72). That it rejects the others by name is the model's form (log 16). -/
def Obligations.InstanceDecodesItsWidths : Prop :=
  (∀ (c : Config) (p : Port) (w : Word), c.pinW = 8 → c.durW = 20 → decodeFor c p w = decode p w)
    ∧ (∀ (c : Config) (m : SensorModel) (p : Pin),
      decodeFor c .hcmd (0x10000000#32 ||| ((modelCode m).setWidth 32 <<< 8) ||| p.setWidth 32)
        = if p.toNat < 2 ^ c.pinW then .ok (.read m p) else .error .widthExceeded)
    ∧ (∀ (c : Config) (l : Level) (d : Dur),
      decodeFor c .crsp (0x40000000#32 ||| ((levelBit l).setWidth 32 <<< 20) ||| d.setWidth 32)
        = if d.toNat < 2 ^ c.durW then .ok (.edge l d) else .error .widthExceeded)
    ∧ (∀ (c : Config) (p : Pin) (d : Dur),
      decodeFor c .ccmd (0x30000000#32 ||| (p.setWidth 32 <<< 20) ||| d.setWidth 32)
        = if p.toNat < 2 ^ c.pinW ∧ d.toNat < 2 ^ c.durW then .ok (.waitEdge p d) else .error .widthExceeded)

/-- R8, R9: a time operand that does not fit `DUR_W` bits is refused, not run; so are widths beyond the fields of the word formats, for which the spec gives no layout (N6; log 16). -/
def Obligations.WidthsBeyondTheFormatsRefused : Prop :=
  ∀ s : State,
    8 < s.cfg.pinW ∨ 20 < s.cfg.durW ∨ (∃ m : SensorModel, 2 ^ s.cfg.durW ≤ (s.cfg.record m).startHoldMs.toNat)
      ∨ 2 ^ s.cfg.durW ≤ s.cfg.tIdleHoldUs.toNat ∨ 2 ^ s.cfg.durW ≤ s.cfg.tSettleUs.toNat
      ∨ 2 ^ s.cfg.durW ≤ s.cfg.edgeTimeoutUs.toNat ∨ 2 ^ s.cfg.durW ≤ s.cfg.retryDelayMs.toNat →
    step s = .refused .illFormedConfiguration

/-- R8, R25, R51, R53: for every `PIN_W` and `DUR_W`, `PIN`, the segments consumed, the lines listed and the operands of the commands issued are numbers of these widths. Kept by every step. -/
def Obligations.WidthInvariantKept : Prop :=
  ∀ s t : State, widthInv s = true → step s = .next t → widthInv t = true
end

