-- ==== Sys2Proof/Laws/State.lean ====
section
/-! SUPPORT. One lemma per field per update of `State`, each true by rfl. -/

namespace Sys2Proof.Machine

/-! ## `setLine` -/

@[simp] theorem setLine_state (s : State) (p : Pin) (v : Line) : (State.setLine s p v).state = s.state := rfl
@[simp] theorem setLine_pend (s : State) (p : Pin) (v : Line) : (State.setLine s p v).pend = s.pend := rfl
@[simp] theorem setLine_model (s : State) (p : Pin) (v : Line) : (State.setLine s p v).model = s.model := rfl
@[simp] theorem setLine_pin (s : State) (p : Pin) (v : Line) : (State.setLine s p v).pin = s.pin := rfl
@[simp] theorem setLine_sr (s : State) (p : Pin) (v : Line) : (State.setLine s p v).sr = s.sr := rfl
@[simp] theorem setLine_bitcnt (s : State) (p : Pin) (v : Line) : (State.setLine s p v).bitcnt = s.bitcnt := rfl
@[simp] theorem setLine_h10 (s : State) (p : Pin) (v : Line) : (State.setLine s p v).h10 = s.h10 := rfl
@[simp] theorem setLine_tNeg (s : State) (p : Pin) (v : Line) : (State.setLine s p v).tNeg = s.tNeg := rfl
@[simp] theorem setLine_tMag (s : State) (p : Pin) (v : Line) : (State.setLine s p v).tMag = s.tMag := rfl
@[simp] theorem setLine_humF (s : State) (p : Pin) (v : Line) : (State.setLine s p v).humF = s.humF := rfl
@[simp] theorem setLine_tempF (s : State) (p : Pin) (v : Line) : (State.setLine s p v).tempF = s.tempF := rfl
@[simp] theorem setLine_attRes (s : State) (p : Pin) (v : Line) : (State.setLine s p v).attRes = s.attRes := rfl
@[simp] theorem setLine_attempts (s : State) (p : Pin) (v : Line) : (State.setLine s p v).attempts = s.attempts := rfl
@[simp] theorem setLine_lastKind (s : State) (p : Pin) (v : Line) : (State.setLine s p v).lastKind = s.lastKind := rfl
@[simp] theorem setLine_rs (s : State) (p : Pin) (v : Line) : (State.setLine s p v).rs = s.rs := rfl
@[simp] theorem setLine_resHum (s : State) (p : Pin) (v : Line) : (State.setLine s p v).resHum = s.resHum := rfl
@[simp] theorem setLine_resTemp (s : State) (p : Pin) (v : Line) : (State.setLine s p v).resTemp = s.resTemp := rfl
@[simp] theorem setLine_cfg (s : State) (p : Pin) (v : Line) : (State.setLine s p v).cfg = s.cfg := rfl
@[simp] theorem setLine_trace (s : State) (p : Pin) (v : Line) : (State.setLine s p v).trace = s.trace := rfl
@[simp] theorem setLine_lines (s : State) (p : Pin) (v : Line) : (State.setLine s p v).lines = Lines.write s.lines p.toNat v := rfl
@[simp] theorem setLine_hcmd (s : State) (p : Pin) (v : Line) : (State.setLine s p v).hcmd = s.hcmd := rfl
@[simp] theorem setLine_crsp (s : State) (p : Pin) (v : Line) : (State.setLine s p v).crsp = s.crsp := rfl
@[simp] theorem setLine_ccmd (s : State) (p : Pin) (v : Line) : (State.setLine s p v).ccmd = s.ccmd := rfl

/-! ## `issueWord` -/

@[simp] theorem issueWord_state (w : Word) (s : State) : (issueWord w s).state = s.state := rfl
@[simp] theorem issueWord_pend (w : Word) (s : State) : (issueWord w s).pend = true := rfl
@[simp] theorem issueWord_model (w : Word) (s : State) : (issueWord w s).model = s.model := rfl
@[simp] theorem issueWord_pin (w : Word) (s : State) : (issueWord w s).pin = s.pin := rfl
@[simp] theorem issueWord_sr (w : Word) (s : State) : (issueWord w s).sr = s.sr := rfl
@[simp] theorem issueWord_bitcnt (w : Word) (s : State) : (issueWord w s).bitcnt = s.bitcnt := rfl
@[simp] theorem issueWord_h10 (w : Word) (s : State) : (issueWord w s).h10 = s.h10 := rfl
@[simp] theorem issueWord_tNeg (w : Word) (s : State) : (issueWord w s).tNeg = s.tNeg := rfl
@[simp] theorem issueWord_tMag (w : Word) (s : State) : (issueWord w s).tMag = s.tMag := rfl
@[simp] theorem issueWord_humF (w : Word) (s : State) : (issueWord w s).humF = s.humF := rfl
@[simp] theorem issueWord_tempF (w : Word) (s : State) : (issueWord w s).tempF = s.tempF := rfl
@[simp] theorem issueWord_attRes (w : Word) (s : State) : (issueWord w s).attRes = s.attRes := rfl
@[simp] theorem issueWord_attempts (w : Word) (s : State) : (issueWord w s).attempts = s.attempts := rfl
@[simp] theorem issueWord_lastKind (w : Word) (s : State) : (issueWord w s).lastKind = s.lastKind := rfl
@[simp] theorem issueWord_rs (w : Word) (s : State) : (issueWord w s).rs = s.rs := rfl
@[simp] theorem issueWord_resHum (w : Word) (s : State) : (issueWord w s).resHum = s.resHum := rfl
@[simp] theorem issueWord_resTemp (w : Word) (s : State) : (issueWord w s).resTemp = s.resTemp := rfl
@[simp] theorem issueWord_cfg (w : Word) (s : State) : (issueWord w s).cfg = s.cfg := rfl
@[simp] theorem issueWord_trace (w : Word) (s : State) : (issueWord w s).trace = s.trace := rfl
@[simp] theorem issueWord_lines (w : Word) (s : State) : (issueWord w s).lines = s.lines := rfl
@[simp] theorem issueWord_hcmd (w : Word) (s : State) : (issueWord w s).hcmd = s.hcmd := rfl
@[simp] theorem issueWord_crsp (w : Word) (s : State) : (issueWord w s).crsp = s.crsp := rfl
@[simp] theorem issueWord_ccmd (w : Word) (s : State) : (issueWord w s).ccmd = s.ccmd ++ [w] := rfl

/-! ## `issueSetDir` -/

@[simp] theorem issueSetDir_state (p : Pin) (d : Direction) (s : State) : (issueSetDir p d s).state = s.state := rfl
@[simp] theorem issueSetDir_pend (p : Pin) (d : Direction) (s : State) : (issueSetDir p d s).pend = true := rfl
@[simp] theorem issueSetDir_model (p : Pin) (d : Direction) (s : State) : (issueSetDir p d s).model = s.model := rfl
@[simp] theorem issueSetDir_pin (p : Pin) (d : Direction) (s : State) : (issueSetDir p d s).pin = s.pin := rfl
@[simp] theorem issueSetDir_sr (p : Pin) (d : Direction) (s : State) : (issueSetDir p d s).sr = s.sr := rfl
@[simp] theorem issueSetDir_bitcnt (p : Pin) (d : Direction) (s : State) : (issueSetDir p d s).bitcnt = s.bitcnt := rfl
@[simp] theorem issueSetDir_h10 (p : Pin) (d : Direction) (s : State) : (issueSetDir p d s).h10 = s.h10 := rfl
@[simp] theorem issueSetDir_tNeg (p : Pin) (d : Direction) (s : State) : (issueSetDir p d s).tNeg = s.tNeg := rfl
@[simp] theorem issueSetDir_tMag (p : Pin) (d : Direction) (s : State) : (issueSetDir p d s).tMag = s.tMag := rfl
@[simp] theorem issueSetDir_humF (p : Pin) (d : Direction) (s : State) : (issueSetDir p d s).humF = s.humF := rfl
@[simp] theorem issueSetDir_tempF (p : Pin) (d : Direction) (s : State) : (issueSetDir p d s).tempF = s.tempF := rfl
@[simp] theorem issueSetDir_attRes (p : Pin) (d : Direction) (s : State) : (issueSetDir p d s).attRes = s.attRes := rfl
@[simp] theorem issueSetDir_attempts (p : Pin) (d : Direction) (s : State) : (issueSetDir p d s).attempts = s.attempts := rfl
@[simp] theorem issueSetDir_lastKind (p : Pin) (d : Direction) (s : State) : (issueSetDir p d s).lastKind = s.lastKind := rfl
@[simp] theorem issueSetDir_rs (p : Pin) (d : Direction) (s : State) : (issueSetDir p d s).rs = s.rs := rfl
@[simp] theorem issueSetDir_resHum (p : Pin) (d : Direction) (s : State) : (issueSetDir p d s).resHum = s.resHum := rfl
@[simp] theorem issueSetDir_resTemp (p : Pin) (d : Direction) (s : State) : (issueSetDir p d s).resTemp = s.resTemp := rfl
@[simp] theorem issueSetDir_cfg (p : Pin) (d : Direction) (s : State) : (issueSetDir p d s).cfg = s.cfg := rfl
@[simp] theorem issueSetDir_trace (p : Pin) (d : Direction) (s : State) : (issueSetDir p d s).trace = s.trace := rfl
@[simp] theorem issueSetDir_lines (p : Pin) (d : Direction) (s : State) : (issueSetDir p d s).lines = Lines.write s.lines p.toNat { s.line p with dir := none } := rfl
@[simp] theorem issueSetDir_hcmd (p : Pin) (d : Direction) (s : State) : (issueSetDir p d s).hcmd = s.hcmd := rfl
@[simp] theorem issueSetDir_crsp (p : Pin) (d : Direction) (s : State) : (issueSetDir p d s).crsp = s.crsp := rfl
@[simp] theorem issueSetDir_ccmd (p : Pin) (d : Direction) (s : State) : (issueSetDir p d s).ccmd = s.ccmd ++ [encode (.setDir p d)] := rfl

/-! ## `issueWrite` -/

@[simp] theorem issueWrite_state (p : Pin) (l : Level) (s : State) : (issueWrite p l s).state = s.state := rfl
@[simp] theorem issueWrite_pend (p : Pin) (l : Level) (s : State) : (issueWrite p l s).pend = true := rfl
@[simp] theorem issueWrite_model (p : Pin) (l : Level) (s : State) : (issueWrite p l s).model = s.model := rfl
@[simp] theorem issueWrite_pin (p : Pin) (l : Level) (s : State) : (issueWrite p l s).pin = s.pin := rfl
@[simp] theorem issueWrite_sr (p : Pin) (l : Level) (s : State) : (issueWrite p l s).sr = s.sr := rfl
@[simp] theorem issueWrite_bitcnt (p : Pin) (l : Level) (s : State) : (issueWrite p l s).bitcnt = s.bitcnt := rfl
@[simp] theorem issueWrite_h10 (p : Pin) (l : Level) (s : State) : (issueWrite p l s).h10 = s.h10 := rfl
@[simp] theorem issueWrite_tNeg (p : Pin) (l : Level) (s : State) : (issueWrite p l s).tNeg = s.tNeg := rfl
@[simp] theorem issueWrite_tMag (p : Pin) (l : Level) (s : State) : (issueWrite p l s).tMag = s.tMag := rfl
@[simp] theorem issueWrite_humF (p : Pin) (l : Level) (s : State) : (issueWrite p l s).humF = s.humF := rfl
@[simp] theorem issueWrite_tempF (p : Pin) (l : Level) (s : State) : (issueWrite p l s).tempF = s.tempF := rfl
@[simp] theorem issueWrite_attRes (p : Pin) (l : Level) (s : State) : (issueWrite p l s).attRes = s.attRes := rfl
@[simp] theorem issueWrite_attempts (p : Pin) (l : Level) (s : State) : (issueWrite p l s).attempts = s.attempts := rfl
@[simp] theorem issueWrite_lastKind (p : Pin) (l : Level) (s : State) : (issueWrite p l s).lastKind = s.lastKind := rfl
@[simp] theorem issueWrite_rs (p : Pin) (l : Level) (s : State) : (issueWrite p l s).rs = s.rs := rfl
@[simp] theorem issueWrite_resHum (p : Pin) (l : Level) (s : State) : (issueWrite p l s).resHum = s.resHum := rfl
@[simp] theorem issueWrite_resTemp (p : Pin) (l : Level) (s : State) : (issueWrite p l s).resTemp = s.resTemp := rfl
@[simp] theorem issueWrite_cfg (p : Pin) (l : Level) (s : State) : (issueWrite p l s).cfg = s.cfg := rfl
@[simp] theorem issueWrite_trace (p : Pin) (l : Level) (s : State) : (issueWrite p l s).trace = s.trace := rfl
@[simp] theorem issueWrite_lines (p : Pin) (l : Level) (s : State) : (issueWrite p l s).lines = Lines.write s.lines p.toNat { s.line p with out := none } := rfl
@[simp] theorem issueWrite_hcmd (p : Pin) (l : Level) (s : State) : (issueWrite p l s).hcmd = s.hcmd := rfl
@[simp] theorem issueWrite_crsp (p : Pin) (l : Level) (s : State) : (issueWrite p l s).crsp = s.crsp := rfl
@[simp] theorem issueWrite_ccmd (p : Pin) (l : Level) (s : State) : (issueWrite p l s).ccmd = s.ccmd ++ [encode (.write p l)] := rfl

/-! ## `issueWaitEdge` -/

@[simp] theorem issueWaitEdge_state (p : Pin) (d : Dur) (s : State) : (issueWaitEdge p d s).state = s.state := rfl
@[simp] theorem issueWaitEdge_pend (p : Pin) (d : Dur) (s : State) : (issueWaitEdge p d s).pend = true := rfl
@[simp] theorem issueWaitEdge_model (p : Pin) (d : Dur) (s : State) : (issueWaitEdge p d s).model = s.model := rfl
@[simp] theorem issueWaitEdge_pin (p : Pin) (d : Dur) (s : State) : (issueWaitEdge p d s).pin = s.pin := rfl
@[simp] theorem issueWaitEdge_sr (p : Pin) (d : Dur) (s : State) : (issueWaitEdge p d s).sr = s.sr := rfl
@[simp] theorem issueWaitEdge_bitcnt (p : Pin) (d : Dur) (s : State) : (issueWaitEdge p d s).bitcnt = s.bitcnt := rfl
@[simp] theorem issueWaitEdge_h10 (p : Pin) (d : Dur) (s : State) : (issueWaitEdge p d s).h10 = s.h10 := rfl
@[simp] theorem issueWaitEdge_tNeg (p : Pin) (d : Dur) (s : State) : (issueWaitEdge p d s).tNeg = s.tNeg := rfl
@[simp] theorem issueWaitEdge_tMag (p : Pin) (d : Dur) (s : State) : (issueWaitEdge p d s).tMag = s.tMag := rfl
@[simp] theorem issueWaitEdge_humF (p : Pin) (d : Dur) (s : State) : (issueWaitEdge p d s).humF = s.humF := rfl
@[simp] theorem issueWaitEdge_tempF (p : Pin) (d : Dur) (s : State) : (issueWaitEdge p d s).tempF = s.tempF := rfl
@[simp] theorem issueWaitEdge_attRes (p : Pin) (d : Dur) (s : State) : (issueWaitEdge p d s).attRes = s.attRes := rfl
@[simp] theorem issueWaitEdge_attempts (p : Pin) (d : Dur) (s : State) : (issueWaitEdge p d s).attempts = s.attempts := rfl
@[simp] theorem issueWaitEdge_lastKind (p : Pin) (d : Dur) (s : State) : (issueWaitEdge p d s).lastKind = s.lastKind := rfl
@[simp] theorem issueWaitEdge_rs (p : Pin) (d : Dur) (s : State) : (issueWaitEdge p d s).rs = s.rs := rfl
@[simp] theorem issueWaitEdge_resHum (p : Pin) (d : Dur) (s : State) : (issueWaitEdge p d s).resHum = s.resHum := rfl
@[simp] theorem issueWaitEdge_resTemp (p : Pin) (d : Dur) (s : State) : (issueWaitEdge p d s).resTemp = s.resTemp := rfl
@[simp] theorem issueWaitEdge_cfg (p : Pin) (d : Dur) (s : State) : (issueWaitEdge p d s).cfg = s.cfg := rfl
@[simp] theorem issueWaitEdge_trace (p : Pin) (d : Dur) (s : State) : (issueWaitEdge p d s).trace = s.trace := rfl
@[simp] theorem issueWaitEdge_lines (p : Pin) (d : Dur) (s : State) : (issueWaitEdge p d s).lines = s.lines := rfl
@[simp] theorem issueWaitEdge_hcmd (p : Pin) (d : Dur) (s : State) : (issueWaitEdge p d s).hcmd = s.hcmd := rfl
@[simp] theorem issueWaitEdge_crsp (p : Pin) (d : Dur) (s : State) : (issueWaitEdge p d s).crsp = s.crsp := rfl
@[simp] theorem issueWaitEdge_ccmd (p : Pin) (d : Dur) (s : State) : (issueWaitEdge p d s).ccmd = s.ccmd ++ [encode (.waitEdge p d)] := rfl

/-! ## `issueSleepUs` -/

@[simp] theorem issueSleepUs_state (d : Dur) (s : State) : (issueSleepUs d s).state = s.state := rfl
@[simp] theorem issueSleepUs_pend (d : Dur) (s : State) : (issueSleepUs d s).pend = true := rfl
@[simp] theorem issueSleepUs_model (d : Dur) (s : State) : (issueSleepUs d s).model = s.model := rfl
@[simp] theorem issueSleepUs_pin (d : Dur) (s : State) : (issueSleepUs d s).pin = s.pin := rfl
@[simp] theorem issueSleepUs_sr (d : Dur) (s : State) : (issueSleepUs d s).sr = s.sr := rfl
@[simp] theorem issueSleepUs_bitcnt (d : Dur) (s : State) : (issueSleepUs d s).bitcnt = s.bitcnt := rfl
@[simp] theorem issueSleepUs_h10 (d : Dur) (s : State) : (issueSleepUs d s).h10 = s.h10 := rfl
@[simp] theorem issueSleepUs_tNeg (d : Dur) (s : State) : (issueSleepUs d s).tNeg = s.tNeg := rfl
@[simp] theorem issueSleepUs_tMag (d : Dur) (s : State) : (issueSleepUs d s).tMag = s.tMag := rfl
@[simp] theorem issueSleepUs_humF (d : Dur) (s : State) : (issueSleepUs d s).humF = s.humF := rfl
@[simp] theorem issueSleepUs_tempF (d : Dur) (s : State) : (issueSleepUs d s).tempF = s.tempF := rfl
@[simp] theorem issueSleepUs_attRes (d : Dur) (s : State) : (issueSleepUs d s).attRes = s.attRes := rfl
@[simp] theorem issueSleepUs_attempts (d : Dur) (s : State) : (issueSleepUs d s).attempts = s.attempts := rfl
@[simp] theorem issueSleepUs_lastKind (d : Dur) (s : State) : (issueSleepUs d s).lastKind = s.lastKind := rfl
@[simp] theorem issueSleepUs_rs (d : Dur) (s : State) : (issueSleepUs d s).rs = s.rs := rfl
@[simp] theorem issueSleepUs_resHum (d : Dur) (s : State) : (issueSleepUs d s).resHum = s.resHum := rfl
@[simp] theorem issueSleepUs_resTemp (d : Dur) (s : State) : (issueSleepUs d s).resTemp = s.resTemp := rfl
@[simp] theorem issueSleepUs_cfg (d : Dur) (s : State) : (issueSleepUs d s).cfg = s.cfg := rfl
@[simp] theorem issueSleepUs_trace (d : Dur) (s : State) : (issueSleepUs d s).trace = s.trace := rfl
@[simp] theorem issueSleepUs_lines (d : Dur) (s : State) : (issueSleepUs d s).lines = s.lines := rfl
@[simp] theorem issueSleepUs_hcmd (d : Dur) (s : State) : (issueSleepUs d s).hcmd = s.hcmd := rfl
@[simp] theorem issueSleepUs_crsp (d : Dur) (s : State) : (issueSleepUs d s).crsp = s.crsp := rfl
@[simp] theorem issueSleepUs_ccmd (d : Dur) (s : State) : (issueSleepUs d s).ccmd = s.ccmd ++ [encode (.sleepUs d)] := rfl

/-! ## `issueSleepMs` -/

@[simp] theorem issueSleepMs_state (d : Dur) (s : State) : (issueSleepMs d s).state = s.state := rfl
@[simp] theorem issueSleepMs_pend (d : Dur) (s : State) : (issueSleepMs d s).pend = true := rfl
@[simp] theorem issueSleepMs_model (d : Dur) (s : State) : (issueSleepMs d s).model = s.model := rfl
@[simp] theorem issueSleepMs_pin (d : Dur) (s : State) : (issueSleepMs d s).pin = s.pin := rfl
@[simp] theorem issueSleepMs_sr (d : Dur) (s : State) : (issueSleepMs d s).sr = s.sr := rfl
@[simp] theorem issueSleepMs_bitcnt (d : Dur) (s : State) : (issueSleepMs d s).bitcnt = s.bitcnt := rfl
@[simp] theorem issueSleepMs_h10 (d : Dur) (s : State) : (issueSleepMs d s).h10 = s.h10 := rfl
@[simp] theorem issueSleepMs_tNeg (d : Dur) (s : State) : (issueSleepMs d s).tNeg = s.tNeg := rfl
@[simp] theorem issueSleepMs_tMag (d : Dur) (s : State) : (issueSleepMs d s).tMag = s.tMag := rfl
@[simp] theorem issueSleepMs_humF (d : Dur) (s : State) : (issueSleepMs d s).humF = s.humF := rfl
@[simp] theorem issueSleepMs_tempF (d : Dur) (s : State) : (issueSleepMs d s).tempF = s.tempF := rfl
@[simp] theorem issueSleepMs_attRes (d : Dur) (s : State) : (issueSleepMs d s).attRes = s.attRes := rfl
@[simp] theorem issueSleepMs_attempts (d : Dur) (s : State) : (issueSleepMs d s).attempts = s.attempts := rfl
@[simp] theorem issueSleepMs_lastKind (d : Dur) (s : State) : (issueSleepMs d s).lastKind = s.lastKind := rfl
@[simp] theorem issueSleepMs_rs (d : Dur) (s : State) : (issueSleepMs d s).rs = s.rs := rfl
@[simp] theorem issueSleepMs_resHum (d : Dur) (s : State) : (issueSleepMs d s).resHum = s.resHum := rfl
@[simp] theorem issueSleepMs_resTemp (d : Dur) (s : State) : (issueSleepMs d s).resTemp = s.resTemp := rfl
@[simp] theorem issueSleepMs_cfg (d : Dur) (s : State) : (issueSleepMs d s).cfg = s.cfg := rfl
@[simp] theorem issueSleepMs_trace (d : Dur) (s : State) : (issueSleepMs d s).trace = s.trace := rfl
@[simp] theorem issueSleepMs_lines (d : Dur) (s : State) : (issueSleepMs d s).lines = s.lines := rfl
@[simp] theorem issueSleepMs_hcmd (d : Dur) (s : State) : (issueSleepMs d s).hcmd = s.hcmd := rfl
@[simp] theorem issueSleepMs_crsp (d : Dur) (s : State) : (issueSleepMs d s).crsp = s.crsp := rfl
@[simp] theorem issueSleepMs_ccmd (d : Dur) (s : State) : (issueSleepMs d s).ccmd = s.ccmd ++ [encode (.sleepMs d)] := rfl

/-! ## `completeSetDir` -/

@[simp] theorem completeSetDir_state (p : Pin) (d : Direction) (s : State) : (completeSetDir p d s).state = s.state := rfl
@[simp] theorem completeSetDir_pend (p : Pin) (d : Direction) (s : State) : (completeSetDir p d s).pend = s.pend := rfl
@[simp] theorem completeSetDir_model (p : Pin) (d : Direction) (s : State) : (completeSetDir p d s).model = s.model := rfl
@[simp] theorem completeSetDir_pin (p : Pin) (d : Direction) (s : State) : (completeSetDir p d s).pin = s.pin := rfl
@[simp] theorem completeSetDir_sr (p : Pin) (d : Direction) (s : State) : (completeSetDir p d s).sr = s.sr := rfl
@[simp] theorem completeSetDir_bitcnt (p : Pin) (d : Direction) (s : State) : (completeSetDir p d s).bitcnt = s.bitcnt := rfl
@[simp] theorem completeSetDir_h10 (p : Pin) (d : Direction) (s : State) : (completeSetDir p d s).h10 = s.h10 := rfl
@[simp] theorem completeSetDir_tNeg (p : Pin) (d : Direction) (s : State) : (completeSetDir p d s).tNeg = s.tNeg := rfl
@[simp] theorem completeSetDir_tMag (p : Pin) (d : Direction) (s : State) : (completeSetDir p d s).tMag = s.tMag := rfl
@[simp] theorem completeSetDir_humF (p : Pin) (d : Direction) (s : State) : (completeSetDir p d s).humF = s.humF := rfl
@[simp] theorem completeSetDir_tempF (p : Pin) (d : Direction) (s : State) : (completeSetDir p d s).tempF = s.tempF := rfl
@[simp] theorem completeSetDir_attRes (p : Pin) (d : Direction) (s : State) : (completeSetDir p d s).attRes = s.attRes := rfl
@[simp] theorem completeSetDir_attempts (p : Pin) (d : Direction) (s : State) : (completeSetDir p d s).attempts = s.attempts := rfl
@[simp] theorem completeSetDir_lastKind (p : Pin) (d : Direction) (s : State) : (completeSetDir p d s).lastKind = s.lastKind := rfl
@[simp] theorem completeSetDir_rs (p : Pin) (d : Direction) (s : State) : (completeSetDir p d s).rs = s.rs := rfl
@[simp] theorem completeSetDir_resHum (p : Pin) (d : Direction) (s : State) : (completeSetDir p d s).resHum = s.resHum := rfl
@[simp] theorem completeSetDir_resTemp (p : Pin) (d : Direction) (s : State) : (completeSetDir p d s).resTemp = s.resTemp := rfl
@[simp] theorem completeSetDir_cfg (p : Pin) (d : Direction) (s : State) : (completeSetDir p d s).cfg = s.cfg := rfl
@[simp] theorem completeSetDir_trace (p : Pin) (d : Direction) (s : State) : (completeSetDir p d s).trace = s.trace := rfl
@[simp] theorem completeSetDir_hcmd (p : Pin) (d : Direction) (s : State) : (completeSetDir p d s).hcmd = s.hcmd := rfl
@[simp] theorem completeSetDir_crsp (p : Pin) (d : Direction) (s : State) : (completeSetDir p d s).crsp = s.crsp := rfl
@[simp] theorem completeSetDir_ccmd (p : Pin) (d : Direction) (s : State) : (completeSetDir p d s).ccmd = s.ccmd := rfl

/-! ## `completeWrite` -/

@[simp] theorem completeWrite_state (p : Pin) (l : Level) (s : State) : (completeWrite p l s).state = s.state := rfl
@[simp] theorem completeWrite_pend (p : Pin) (l : Level) (s : State) : (completeWrite p l s).pend = s.pend := rfl
@[simp] theorem completeWrite_model (p : Pin) (l : Level) (s : State) : (completeWrite p l s).model = s.model := rfl
@[simp] theorem completeWrite_pin (p : Pin) (l : Level) (s : State) : (completeWrite p l s).pin = s.pin := rfl
@[simp] theorem completeWrite_sr (p : Pin) (l : Level) (s : State) : (completeWrite p l s).sr = s.sr := rfl
@[simp] theorem completeWrite_bitcnt (p : Pin) (l : Level) (s : State) : (completeWrite p l s).bitcnt = s.bitcnt := rfl
@[simp] theorem completeWrite_h10 (p : Pin) (l : Level) (s : State) : (completeWrite p l s).h10 = s.h10 := rfl
@[simp] theorem completeWrite_tNeg (p : Pin) (l : Level) (s : State) : (completeWrite p l s).tNeg = s.tNeg := rfl
@[simp] theorem completeWrite_tMag (p : Pin) (l : Level) (s : State) : (completeWrite p l s).tMag = s.tMag := rfl
@[simp] theorem completeWrite_humF (p : Pin) (l : Level) (s : State) : (completeWrite p l s).humF = s.humF := rfl
@[simp] theorem completeWrite_tempF (p : Pin) (l : Level) (s : State) : (completeWrite p l s).tempF = s.tempF := rfl
@[simp] theorem completeWrite_attRes (p : Pin) (l : Level) (s : State) : (completeWrite p l s).attRes = s.attRes := rfl
@[simp] theorem completeWrite_attempts (p : Pin) (l : Level) (s : State) : (completeWrite p l s).attempts = s.attempts := rfl
@[simp] theorem completeWrite_lastKind (p : Pin) (l : Level) (s : State) : (completeWrite p l s).lastKind = s.lastKind := rfl
@[simp] theorem completeWrite_rs (p : Pin) (l : Level) (s : State) : (completeWrite p l s).rs = s.rs := rfl
@[simp] theorem completeWrite_resHum (p : Pin) (l : Level) (s : State) : (completeWrite p l s).resHum = s.resHum := rfl
@[simp] theorem completeWrite_resTemp (p : Pin) (l : Level) (s : State) : (completeWrite p l s).resTemp = s.resTemp := rfl
@[simp] theorem completeWrite_cfg (p : Pin) (l : Level) (s : State) : (completeWrite p l s).cfg = s.cfg := rfl
@[simp] theorem completeWrite_trace (p : Pin) (l : Level) (s : State) : (completeWrite p l s).trace = s.trace := rfl
@[simp] theorem completeWrite_hcmd (p : Pin) (l : Level) (s : State) : (completeWrite p l s).hcmd = s.hcmd := rfl
@[simp] theorem completeWrite_crsp (p : Pin) (l : Level) (s : State) : (completeWrite p l s).crsp = s.crsp := rfl
@[simp] theorem completeWrite_ccmd (p : Pin) (l : Level) (s : State) : (completeWrite p l s).ccmd = s.ccmd := rfl

/-! ## `appendTrace` -/

@[simp] theorem appendTrace_state (l : Level) (d : Dur) (s : State) : (appendTrace l d s).state = s.state := rfl
@[simp] theorem appendTrace_pend (l : Level) (d : Dur) (s : State) : (appendTrace l d s).pend = s.pend := rfl
@[simp] theorem appendTrace_model (l : Level) (d : Dur) (s : State) : (appendTrace l d s).model = s.model := rfl
@[simp] theorem appendTrace_pin (l : Level) (d : Dur) (s : State) : (appendTrace l d s).pin = s.pin := rfl
@[simp] theorem appendTrace_sr (l : Level) (d : Dur) (s : State) : (appendTrace l d s).sr = s.sr := rfl
@[simp] theorem appendTrace_bitcnt (l : Level) (d : Dur) (s : State) : (appendTrace l d s).bitcnt = s.bitcnt := rfl
@[simp] theorem appendTrace_h10 (l : Level) (d : Dur) (s : State) : (appendTrace l d s).h10 = s.h10 := rfl
@[simp] theorem appendTrace_tNeg (l : Level) (d : Dur) (s : State) : (appendTrace l d s).tNeg = s.tNeg := rfl
@[simp] theorem appendTrace_tMag (l : Level) (d : Dur) (s : State) : (appendTrace l d s).tMag = s.tMag := rfl
@[simp] theorem appendTrace_humF (l : Level) (d : Dur) (s : State) : (appendTrace l d s).humF = s.humF := rfl
@[simp] theorem appendTrace_tempF (l : Level) (d : Dur) (s : State) : (appendTrace l d s).tempF = s.tempF := rfl
@[simp] theorem appendTrace_attRes (l : Level) (d : Dur) (s : State) : (appendTrace l d s).attRes = s.attRes := rfl
@[simp] theorem appendTrace_attempts (l : Level) (d : Dur) (s : State) : (appendTrace l d s).attempts = s.attempts := rfl
@[simp] theorem appendTrace_lastKind (l : Level) (d : Dur) (s : State) : (appendTrace l d s).lastKind = s.lastKind := rfl
@[simp] theorem appendTrace_rs (l : Level) (d : Dur) (s : State) : (appendTrace l d s).rs = s.rs := rfl
@[simp] theorem appendTrace_resHum (l : Level) (d : Dur) (s : State) : (appendTrace l d s).resHum = s.resHum := rfl
@[simp] theorem appendTrace_resTemp (l : Level) (d : Dur) (s : State) : (appendTrace l d s).resTemp = s.resTemp := rfl
@[simp] theorem appendTrace_cfg (l : Level) (d : Dur) (s : State) : (appendTrace l d s).cfg = s.cfg := rfl
@[simp] theorem appendTrace_trace (l : Level) (d : Dur) (s : State) : (appendTrace l d s).trace = s.trace ++ [{ level := l, duration := d }] := rfl
@[simp] theorem appendTrace_lines (l : Level) (d : Dur) (s : State) : (appendTrace l d s).lines = s.lines := rfl
@[simp] theorem appendTrace_hcmd (l : Level) (d : Dur) (s : State) : (appendTrace l d s).hcmd = s.hcmd := rfl
@[simp] theorem appendTrace_crsp (l : Level) (d : Dur) (s : State) : (appendTrace l d s).crsp = s.crsp := rfl
@[simp] theorem appendTrace_ccmd (l : Level) (d : Dur) (s : State) : (appendTrace l d s).ccmd = s.ccmd := rfl

/-! ## `attemptFail` -/

@[simp] theorem attemptFail_state (k : AttRes) (s : State) : (attemptFail k s).state = .attDone := rfl
@[simp] theorem attemptFail_pend (k : AttRes) (s : State) : (attemptFail k s).pend = s.pend := rfl
@[simp] theorem attemptFail_model (k : AttRes) (s : State) : (attemptFail k s).model = s.model := rfl
@[simp] theorem attemptFail_pin (k : AttRes) (s : State) : (attemptFail k s).pin = s.pin := rfl
@[simp] theorem attemptFail_sr (k : AttRes) (s : State) : (attemptFail k s).sr = s.sr := rfl
@[simp] theorem attemptFail_bitcnt (k : AttRes) (s : State) : (attemptFail k s).bitcnt = s.bitcnt := rfl
@[simp] theorem attemptFail_h10 (k : AttRes) (s : State) : (attemptFail k s).h10 = s.h10 := rfl
@[simp] theorem attemptFail_tNeg (k : AttRes) (s : State) : (attemptFail k s).tNeg = s.tNeg := rfl
@[simp] theorem attemptFail_tMag (k : AttRes) (s : State) : (attemptFail k s).tMag = s.tMag := rfl
@[simp] theorem attemptFail_humF (k : AttRes) (s : State) : (attemptFail k s).humF = s.humF := rfl
@[simp] theorem attemptFail_tempF (k : AttRes) (s : State) : (attemptFail k s).tempF = s.tempF := rfl
@[simp] theorem attemptFail_attRes (k : AttRes) (s : State) : (attemptFail k s).attRes = k := rfl
@[simp] theorem attemptFail_attempts (k : AttRes) (s : State) : (attemptFail k s).attempts = s.attempts := rfl
@[simp] theorem attemptFail_lastKind (k : AttRes) (s : State) : (attemptFail k s).lastKind = s.lastKind := rfl
@[simp] theorem attemptFail_rs (k : AttRes) (s : State) : (attemptFail k s).rs = s.rs := rfl
@[simp] theorem attemptFail_resHum (k : AttRes) (s : State) : (attemptFail k s).resHum = s.resHum := rfl
@[simp] theorem attemptFail_resTemp (k : AttRes) (s : State) : (attemptFail k s).resTemp = s.resTemp := rfl
@[simp] theorem attemptFail_cfg (k : AttRes) (s : State) : (attemptFail k s).cfg = s.cfg := rfl
@[simp] theorem attemptFail_trace (k : AttRes) (s : State) : (attemptFail k s).trace = s.trace := rfl
@[simp] theorem attemptFail_lines (k : AttRes) (s : State) : (attemptFail k s).lines = s.lines := rfl
@[simp] theorem attemptFail_hcmd (k : AttRes) (s : State) : (attemptFail k s).hcmd = s.hcmd := rfl
@[simp] theorem attemptFail_crsp (k : AttRes) (s : State) : (attemptFail k s).crsp = s.crsp := rfl
@[simp] theorem attemptFail_ccmd (k : AttRes) (s : State) : (attemptFail k s).ccmd = s.ccmd := rfl

/-! ## `captureTimeout` -/

@[simp] theorem captureTimeout_state (s : State) : (captureTimeout s).state = .attDone := rfl
@[simp] theorem captureTimeout_pend (s : State) : (captureTimeout s).pend = false := rfl
@[simp] theorem captureTimeout_model (s : State) : (captureTimeout s).model = s.model := rfl
@[simp] theorem captureTimeout_pin (s : State) : (captureTimeout s).pin = s.pin := rfl
@[simp] theorem captureTimeout_sr (s : State) : (captureTimeout s).sr = s.sr := rfl
@[simp] theorem captureTimeout_bitcnt (s : State) : (captureTimeout s).bitcnt = s.bitcnt := rfl
@[simp] theorem captureTimeout_h10 (s : State) : (captureTimeout s).h10 = s.h10 := rfl
@[simp] theorem captureTimeout_tNeg (s : State) : (captureTimeout s).tNeg = s.tNeg := rfl
@[simp] theorem captureTimeout_tMag (s : State) : (captureTimeout s).tMag = s.tMag := rfl
@[simp] theorem captureTimeout_humF (s : State) : (captureTimeout s).humF = s.humF := rfl
@[simp] theorem captureTimeout_tempF (s : State) : (captureTimeout s).tempF = s.tempF := rfl
@[simp] theorem captureTimeout_attRes (s : State) : (captureTimeout s).attRes = .timeout := rfl
@[simp] theorem captureTimeout_attempts (s : State) : (captureTimeout s).attempts = s.attempts := rfl
@[simp] theorem captureTimeout_lastKind (s : State) : (captureTimeout s).lastKind = s.lastKind := rfl
@[simp] theorem captureTimeout_rs (s : State) : (captureTimeout s).rs = s.rs := rfl
@[simp] theorem captureTimeout_resHum (s : State) : (captureTimeout s).resHum = s.resHum := rfl
@[simp] theorem captureTimeout_resTemp (s : State) : (captureTimeout s).resTemp = s.resTemp := rfl
@[simp] theorem captureTimeout_cfg (s : State) : (captureTimeout s).cfg = s.cfg := rfl
@[simp] theorem captureTimeout_trace (s : State) : (captureTimeout s).trace = s.trace := rfl
@[simp] theorem captureTimeout_lines (s : State) : (captureTimeout s).lines = s.lines := rfl
@[simp] theorem captureTimeout_hcmd (s : State) : (captureTimeout s).hcmd = s.hcmd := rfl
@[simp] theorem captureTimeout_crsp (s : State) : (captureTimeout s).crsp = s.crsp := rfl
@[simp] theorem captureTimeout_ccmd (s : State) : (captureTimeout s).ccmd = s.ccmd := rfl

/-! ## `startAttempt` -/

@[simp] theorem startAttempt_state (s : State) : (startAttempt s).state = .hsDirOut := rfl
@[simp] theorem startAttempt_pend (s : State) : (startAttempt s).pend = s.pend := rfl
@[simp] theorem startAttempt_model (s : State) : (startAttempt s).model = s.model := rfl
@[simp] theorem startAttempt_pin (s : State) : (startAttempt s).pin = s.pin := rfl
@[simp] theorem startAttempt_sr (s : State) : (startAttempt s).sr = 0 := rfl
@[simp] theorem startAttempt_bitcnt (s : State) : (startAttempt s).bitcnt = 0 := rfl
@[simp] theorem startAttempt_h10 (s : State) : (startAttempt s).h10 = s.h10 := rfl
@[simp] theorem startAttempt_tNeg (s : State) : (startAttempt s).tNeg = s.tNeg := rfl
@[simp] theorem startAttempt_tMag (s : State) : (startAttempt s).tMag = s.tMag := rfl
@[simp] theorem startAttempt_humF (s : State) : (startAttempt s).humF = s.humF := rfl
@[simp] theorem startAttempt_tempF (s : State) : (startAttempt s).tempF = s.tempF := rfl
@[simp] theorem startAttempt_attRes (s : State) : (startAttempt s).attRes = s.attRes := rfl
@[simp] theorem startAttempt_attempts (s : State) : (startAttempt s).attempts = s.attempts + 1 := rfl
@[simp] theorem startAttempt_lastKind (s : State) : (startAttempt s).lastKind = s.lastKind := rfl
@[simp] theorem startAttempt_rs (s : State) : (startAttempt s).rs = s.rs := rfl
@[simp] theorem startAttempt_resHum (s : State) : (startAttempt s).resHum = s.resHum := rfl
@[simp] theorem startAttempt_resTemp (s : State) : (startAttempt s).resTemp = s.resTemp := rfl
@[simp] theorem startAttempt_cfg (s : State) : (startAttempt s).cfg = s.cfg := rfl
@[simp] theorem startAttempt_trace (s : State) : (startAttempt s).trace = [] := rfl
@[simp] theorem startAttempt_lines (s : State) : (startAttempt s).lines = s.lines := rfl
@[simp] theorem startAttempt_hcmd (s : State) : (startAttempt s).hcmd = s.hcmd := rfl
@[simp] theorem startAttempt_crsp (s : State) : (startAttempt s).crsp = s.crsp := rfl
@[simp] theorem startAttempt_ccmd (s : State) : (startAttempt s).ccmd = s.ccmd := rfl

/-! ## `acceptRead` -/

@[simp] theorem acceptRead_state (m : SensorModel) (p : Pin) (s : State) : (acceptRead m p s).state = .attStart := rfl
@[simp] theorem acceptRead_pend (m : SensorModel) (p : Pin) (s : State) : (acceptRead m p s).pend = s.pend := rfl
@[simp] theorem acceptRead_model (m : SensorModel) (p : Pin) (s : State) : (acceptRead m p s).model = m := rfl
@[simp] theorem acceptRead_pin (m : SensorModel) (p : Pin) (s : State) : (acceptRead m p s).pin = p := rfl
@[simp] theorem acceptRead_sr (m : SensorModel) (p : Pin) (s : State) : (acceptRead m p s).sr = s.sr := rfl
@[simp] theorem acceptRead_bitcnt (m : SensorModel) (p : Pin) (s : State) : (acceptRead m p s).bitcnt = s.bitcnt := rfl
@[simp] theorem acceptRead_h10 (m : SensorModel) (p : Pin) (s : State) : (acceptRead m p s).h10 = s.h10 := rfl
@[simp] theorem acceptRead_tNeg (m : SensorModel) (p : Pin) (s : State) : (acceptRead m p s).tNeg = s.tNeg := rfl
@[simp] theorem acceptRead_tMag (m : SensorModel) (p : Pin) (s : State) : (acceptRead m p s).tMag = s.tMag := rfl
@[simp] theorem acceptRead_humF (m : SensorModel) (p : Pin) (s : State) : (acceptRead m p s).humF = s.humF := rfl
@[simp] theorem acceptRead_tempF (m : SensorModel) (p : Pin) (s : State) : (acceptRead m p s).tempF = s.tempF := rfl
@[simp] theorem acceptRead_attRes (m : SensorModel) (p : Pin) (s : State) : (acceptRead m p s).attRes = s.attRes := rfl
@[simp] theorem acceptRead_attempts (m : SensorModel) (p : Pin) (s : State) : (acceptRead m p s).attempts = 0 := rfl
@[simp] theorem acceptRead_lastKind (m : SensorModel) (p : Pin) (s : State) : (acceptRead m p s).lastKind = s.lastKind := rfl
@[simp] theorem acceptRead_rs (m : SensorModel) (p : Pin) (s : State) : (acceptRead m p s).rs = 0 := rfl
@[simp] theorem acceptRead_resHum (m : SensorModel) (p : Pin) (s : State) : (acceptRead m p s).resHum = none := rfl
@[simp] theorem acceptRead_resTemp (m : SensorModel) (p : Pin) (s : State) : (acceptRead m p s).resTemp = none := rfl
@[simp] theorem acceptRead_cfg (m : SensorModel) (p : Pin) (s : State) : (acceptRead m p s).cfg = s.cfg := rfl
@[simp] theorem acceptRead_trace (m : SensorModel) (p : Pin) (s : State) : (acceptRead m p s).trace = s.trace := rfl
@[simp] theorem acceptRead_lines (m : SensorModel) (p : Pin) (s : State) : (acceptRead m p s).lines = s.lines := rfl
@[simp] theorem acceptRead_hcmd (m : SensorModel) (p : Pin) (s : State) : (acceptRead m p s).hcmd = s.hcmd := rfl
@[simp] theorem acceptRead_crsp (m : SensorModel) (p : Pin) (s : State) : (acceptRead m p s).crsp = s.crsp := rfl
@[simp] theorem acceptRead_ccmd (m : SensorModel) (p : Pin) (s : State) : (acceptRead m p s).ccmd = s.ccmd := rfl

/-! ## `publishReading` -/

@[simp] theorem publishReading_state (s : State) : (publishReading s).state = .idle := rfl
@[simp] theorem publishReading_pend (s : State) : (publishReading s).pend = s.pend := rfl
@[simp] theorem publishReading_model (s : State) : (publishReading s).model = s.model := rfl
@[simp] theorem publishReading_pin (s : State) : (publishReading s).pin = s.pin := rfl
@[simp] theorem publishReading_sr (s : State) : (publishReading s).sr = s.sr := rfl
@[simp] theorem publishReading_bitcnt (s : State) : (publishReading s).bitcnt = s.bitcnt := rfl
@[simp] theorem publishReading_h10 (s : State) : (publishReading s).h10 = s.h10 := rfl
@[simp] theorem publishReading_tNeg (s : State) : (publishReading s).tNeg = s.tNeg := rfl
@[simp] theorem publishReading_tMag (s : State) : (publishReading s).tMag = s.tMag := rfl
@[simp] theorem publishReading_humF (s : State) : (publishReading s).humF = s.humF := rfl
@[simp] theorem publishReading_tempF (s : State) : (publishReading s).tempF = s.tempF := rfl
@[simp] theorem publishReading_attRes (s : State) : (publishReading s).attRes = s.attRes := rfl
@[simp] theorem publishReading_attempts (s : State) : (publishReading s).attempts = s.attempts := rfl
@[simp] theorem publishReading_lastKind (s : State) : (publishReading s).lastKind = s.lastKind := rfl
@[simp] theorem publishReading_rs (s : State) : (publishReading s).rs = encode .resultReading := rfl
@[simp] theorem publishReading_resHum (s : State) : (publishReading s).resHum = some s.humF := rfl
@[simp] theorem publishReading_resTemp (s : State) : (publishReading s).resTemp = some s.tempF := rfl
@[simp] theorem publishReading_cfg (s : State) : (publishReading s).cfg = s.cfg := rfl
@[simp] theorem publishReading_trace (s : State) : (publishReading s).trace = s.trace := rfl
@[simp] theorem publishReading_lines (s : State) : (publishReading s).lines = s.lines := rfl
@[simp] theorem publishReading_hcmd (s : State) : (publishReading s).hcmd = s.hcmd := rfl
@[simp] theorem publishReading_crsp (s : State) : (publishReading s).crsp = s.crsp := rfl
@[simp] theorem publishReading_ccmd (s : State) : (publishReading s).ccmd = s.ccmd := rfl

/-! ## `publishReadError` -/

@[simp] theorem publishReadError_state (s : State) : (publishReadError s).state = .idle := rfl
@[simp] theorem publishReadError_pend (s : State) : (publishReadError s).pend = s.pend := rfl
@[simp] theorem publishReadError_model (s : State) : (publishReadError s).model = s.model := rfl
@[simp] theorem publishReadError_pin (s : State) : (publishReadError s).pin = s.pin := rfl
@[simp] theorem publishReadError_sr (s : State) : (publishReadError s).sr = s.sr := rfl
@[simp] theorem publishReadError_bitcnt (s : State) : (publishReadError s).bitcnt = s.bitcnt := rfl
@[simp] theorem publishReadError_h10 (s : State) : (publishReadError s).h10 = s.h10 := rfl
@[simp] theorem publishReadError_tNeg (s : State) : (publishReadError s).tNeg = s.tNeg := rfl
@[simp] theorem publishReadError_tMag (s : State) : (publishReadError s).tMag = s.tMag := rfl
@[simp] theorem publishReadError_humF (s : State) : (publishReadError s).humF = s.humF := rfl
@[simp] theorem publishReadError_tempF (s : State) : (publishReadError s).tempF = s.tempF := rfl
@[simp] theorem publishReadError_attRes (s : State) : (publishReadError s).attRes = s.attRes := rfl
@[simp] theorem publishReadError_attempts (s : State) : (publishReadError s).attempts = s.attempts := rfl
@[simp] theorem publishReadError_lastKind (s : State) : (publishReadError s).lastKind = s.lastKind := rfl
@[simp] theorem publishReadError_rs (s : State) : (publishReadError s).rs = encode (.resultReadError s.lastKind s.attempts) := rfl
@[simp] theorem publishReadError_resHum (s : State) : (publishReadError s).resHum = none := rfl
@[simp] theorem publishReadError_resTemp (s : State) : (publishReadError s).resTemp = none := rfl
@[simp] theorem publishReadError_cfg (s : State) : (publishReadError s).cfg = s.cfg := rfl
@[simp] theorem publishReadError_trace (s : State) : (publishReadError s).trace = s.trace := rfl
@[simp] theorem publishReadError_lines (s : State) : (publishReadError s).lines = s.lines := rfl
@[simp] theorem publishReadError_hcmd (s : State) : (publishReadError s).hcmd = s.hcmd := rfl
@[simp] theorem publishReadError_crsp (s : State) : (publishReadError s).crsp = s.crsp := rfl
@[simp] theorem publishReadError_ccmd (s : State) : (publishReadError s).ccmd = s.ccmd := rfl

/-! ## `shiftBit` -/

@[simp] theorem shiftBit_state (d : Dur) (s : State) : (shiftBit d s).state = afterBit (s.bitcnt + 1) := rfl
@[simp] theorem shiftBit_pend (d : Dur) (s : State) : (shiftBit d s).pend = s.pend := rfl
@[simp] theorem shiftBit_model (d : Dur) (s : State) : (shiftBit d s).model = s.model := rfl
@[simp] theorem shiftBit_pin (d : Dur) (s : State) : (shiftBit d s).pin = s.pin := rfl
@[simp] theorem shiftBit_sr (d : Dur) (s : State) : (shiftBit d s).sr = accumulate s.sr (classify s.cfg s.model d) := rfl
@[simp] theorem shiftBit_bitcnt (d : Dur) (s : State) : (shiftBit d s).bitcnt = s.bitcnt + 1 := rfl
@[simp] theorem shiftBit_h10 (d : Dur) (s : State) : (shiftBit d s).h10 = s.h10 := rfl
@[simp] theorem shiftBit_tNeg (d : Dur) (s : State) : (shiftBit d s).tNeg = s.tNeg := rfl
@[simp] theorem shiftBit_tMag (d : Dur) (s : State) : (shiftBit d s).tMag = s.tMag := rfl
@[simp] theorem shiftBit_humF (d : Dur) (s : State) : (shiftBit d s).humF = s.humF := rfl
@[simp] theorem shiftBit_tempF (d : Dur) (s : State) : (shiftBit d s).tempF = s.tempF := rfl
@[simp] theorem shiftBit_attRes (d : Dur) (s : State) : (shiftBit d s).attRes = s.attRes := rfl
@[simp] theorem shiftBit_attempts (d : Dur) (s : State) : (shiftBit d s).attempts = s.attempts := rfl
@[simp] theorem shiftBit_lastKind (d : Dur) (s : State) : (shiftBit d s).lastKind = s.lastKind := rfl
@[simp] theorem shiftBit_rs (d : Dur) (s : State) : (shiftBit d s).rs = s.rs := rfl
@[simp] theorem shiftBit_resHum (d : Dur) (s : State) : (shiftBit d s).resHum = s.resHum := rfl
@[simp] theorem shiftBit_resTemp (d : Dur) (s : State) : (shiftBit d s).resTemp = s.resTemp := rfl
@[simp] theorem shiftBit_cfg (d : Dur) (s : State) : (shiftBit d s).cfg = s.cfg := rfl
@[simp] theorem shiftBit_trace (d : Dur) (s : State) : (shiftBit d s).trace = s.trace := rfl
@[simp] theorem shiftBit_lines (d : Dur) (s : State) : (shiftBit d s).lines = s.lines := rfl
@[simp] theorem shiftBit_hcmd (d : Dur) (s : State) : (shiftBit d s).hcmd = s.hcmd := rfl
@[simp] theorem shiftBit_crsp (d : Dur) (s : State) : (shiftBit d s).crsp = s.crsp := rfl
@[simp] theorem shiftBit_ccmd (d : Dur) (s : State) : (shiftBit d s).ccmd = s.ccmd := rfl

end Sys2Proof.Machine
end

