-- ==== Sys2Proof/Laws/Lines.lean ====
section
/-! SUPPORT. The line space: a read after a write, and the canonical form every operation keeps. -/

namespace Sys2Proof.Machine

theorem wfFrom_mono {l : List (Nat × Line)} {a b : Nat} (hab : a ≤ b) (h : Lines.wfFrom b l = true) :
    Lines.wfFrom a l = true := by
  cases l with
  | nil => rfl
  | cons e rest =>
    obtain ⟨q, v⟩ := e
    simp only [Lines.wfFrom, Bool.and_eq_true, decide_eq_true_eq] at h ⊢
    exact ⟨⟨⟨by omega, h.1.1.2⟩, h.1.2⟩, h.2⟩

/-- A pin below every listed one is unlisted. -/
theorem read_below {l : List (Nat × Line)} {a p : Nat} (h : Lines.wfFrom a l = true) (hp : p < a) :
    Lines.read l p = Line.unknown := by
  induction l generalizing a with
  | nil => rfl
  | cons e rest ih =>
    obtain ⟨q, v⟩ := e
    simp only [Lines.wfFrom, Bool.and_eq_true, decide_eq_true_eq] at h
    have hq : q ≠ p := by omega
    simp only [Lines.read, hq, if_false]
    exact ih h.2 (by omega)

/-- A read of the pin just written gives what was written. -/
theorem read_write_same {l : List (Nat × Line)} {a : Nat} (h : Lines.wfFrom a l = true) (p : Nat) (v : Line) :
    Lines.read (Lines.write l p v) p = v := by
  induction l generalizing a with
  | nil => by_cases hv : v = Line.unknown <;> simp [Lines.write, Lines.read, hv]
  | cons e rest ih =>
    obtain ⟨q, u⟩ := e
    have hw := h
    simp only [Lines.wfFrom, Bool.and_eq_true, decide_eq_true_eq] at h
    simp only [Lines.write]
    split
    · rename_i hpq
      by_cases hv : v = Line.unknown
      · simp only [hv, if_true]
        exact read_below (a := q) (by simp [Lines.wfFrom, h]) hpq
      · simp [hv, Lines.read]
    · split
      · rename_i hpq
        by_cases hv : v = Line.unknown
        · simp only [hv, if_true]
          exact read_below h.2 (by omega)
        · simp [hv, Lines.read]
      · rename_i h1 h2
        have hq : q ≠ p := fun e => h2 e.symm
        simp only [Lines.read, hq, if_false]
        exact ih h.2

/-- A write leaves every other pin alone. -/
theorem read_write_other (l : List (Nat × Line)) {p r : Nat} (hr : r ≠ p) (v : Line) :
    Lines.read (Lines.write l p v) r = Lines.read l r := by
  induction l with
  | nil => by_cases hv : v = Line.unknown <;> simp [Lines.write, Lines.read, hv, Ne.symm hr]
  | cons e rest ih =>
    obtain ⟨q, u⟩ := e
    simp only [Lines.write]
    split
    · by_cases hv : v = Line.unknown <;> simp [Lines.read, hv, Ne.symm hr]
    · split
      · rename_i h2
        subst h2
        by_cases hv : v = Line.unknown <;> simp [Lines.read, hv, Ne.symm hr]
      · simp only [Lines.read, ih]

/-- A write of a pin number keeps the canonical form. -/
theorem wfFrom_write {l : List (Nat × Line)} {a p : Nat} (h : Lines.wfFrom a l = true) (hp : p < 2 ^ pinFieldW) (ha : a ≤ p)
    (v : Line) : Lines.wfFrom a (Lines.write l p v) = true := by
  induction l generalizing a with
  | nil =>
    by_cases hv : v = Line.unknown
    · simp [Lines.write, hv, Lines.wfFrom]
    · simp [Lines.write, hv, Lines.wfFrom, ha, hp]
  | cons e rest ih =>
    obtain ⟨q, u⟩ := e
    have hw := h
    simp only [Lines.wfFrom, Bool.and_eq_true, decide_eq_true_eq] at h
    simp only [Lines.write]
    split
    · by_cases hv : v = Line.unknown
      · simpa [hv] using hw
      · simp only [hv, if_false, Lines.wfFrom, Bool.and_eq_true, decide_eq_true_eq]
        exact ⟨⟨⟨ha, hp⟩, hv⟩, ⟨⟨⟨by omega, h.1.1.2⟩, h.1.2⟩, h.2⟩⟩
    · split
      · rename_i hpq
        subst hpq
        by_cases hv : v = Line.unknown
        · simp only [hv, if_true]
          exact wfFrom_mono (by omega) h.2
        · simp only [hv, if_false, Lines.wfFrom, Bool.and_eq_true, decide_eq_true_eq]
          exact ⟨⟨⟨ha, hp⟩, hv⟩, h.2⟩
      · simp only [Lines.wfFrom, Bool.and_eq_true, decide_eq_true_eq]
        exact ⟨h.1, ih h.2 (by omega)⟩

theorem wf_write {l : List (Nat × Line)} (h : Lines.wf l = true) (p : Pin) (v : Line) :
    Lines.wf (Lines.write l p.toNat v) = true :=
  wfFrom_write h p.isLt (Nat.zero_le _) v

/-! ## Through `State.line` and `State.setLine` -/

theorem line_setLine_same {s : State} (h : Lines.wf s.lines = true) (p : Pin) (v : Line) :
    (s.setLine p v).line p = v := read_write_same h p.toNat v

theorem line_setLine_other (s : State) {p q : Pin} (hq : q ≠ p) (v : Line) : (s.setLine p v).line q = s.line q :=
  read_write_other s.lines (fun e => hq (BitVec.eq_of_toNat_eq e)) v

/-- A state's lines are read from `lines` alone. -/
theorem line_congr {s t : State} (h : s.lines = t.lines) (p : Pin) : s.line p = t.line p := by
  simp [State.line, h]

theorem wf_issueSetDir {s : State} (h : Lines.wf s.lines = true) (p : Pin) (d : Direction) :
    Lines.wf (issueSetDir p d s).lines = true := wf_write h p _

theorem wf_issueWrite {s : State} (h : Lines.wf s.lines = true) (p : Pin) (l : Level) :
    Lines.wf (issueWrite p l s).lines = true := wf_write h p _

theorem wf_completeSetDir {s : State} (h : Lines.wf s.lines = true) (p : Pin) (d : Direction) :
    Lines.wf (completeSetDir p d s).lines = true := wf_write h p _

theorem wf_completeWrite {s : State} (h : Lines.wf s.lines = true) (p : Pin) (l : Level) :
    Lines.wf (completeWrite p l s).lines = true := wf_write h p _

/-! ## What the operations on the line do to it -/

theorem line_issueSetDir_other (s : State) {p q : Pin} (hq : q ≠ p) (d : Direction) : (issueSetDir p d s).line q = s.line q :=
  line_setLine_other s hq _

theorem line_issueWrite_other (s : State) {p q : Pin} (hq : q ≠ p) (l : Level) : (issueWrite p l s).line q = s.line q :=
  line_setLine_other s hq _

theorem line_completeSetDir_other (s : State) {p q : Pin} (hq : q ≠ p) (d : Direction) :
    (completeSetDir p d s).line q = s.line q := line_setLine_other s hq _

theorem line_completeWrite_other (s : State) {p q : Pin} (hq : q ≠ p) (l : Level) : (completeWrite p l s).line q = s.line q :=
  line_setLine_other s hq _

theorem line_issueSetDir_same {s : State} (h : Lines.wf s.lines = true) (p : Pin) (d : Direction) :
    (issueSetDir p d s).line p = { s.line p with dir := none } := line_setLine_same h p _

theorem line_issueWrite_same {s : State} (h : Lines.wf s.lines = true) (p : Pin) (l : Level) :
    (issueWrite p l s).line p = { s.line p with out := none } := line_setLine_same h p _

theorem line_completeSetDir_output {s : State} (h : Lines.wf s.lines = true) (p : Pin) :
    (completeSetDir p .output s).line p = { dir := some .output, out := none } := line_setLine_same h p _

theorem line_completeSetDir_input {s : State} (h : Lines.wf s.lines = true) (p : Pin) :
    (completeSetDir p .input s).line p = { dir := some .input, out := (s.line p).out } := line_setLine_same h p _

theorem line_completeWrite_output {s : State} (h : Lines.wf s.lines = true) {p : Pin} (hd : (s.line p).dir = some .output)
    (l : Level) : (completeWrite p l s).line p = { dir := some .output, out := some l } := by
  refine (line_setLine_same h p _).trans ?_
  simp only [hd, if_true]

end Sys2Proof.Machine
end

