-- ==== Sys2Proof/Laws/PerInstr.lean ====
section
/-! SUPPORT. Per-instruction laws: decoding an encoded operation on its port gives it back (spec/30_encoding.md R71 to R80, R85). -/

namespace Sys2Proof.Laws

/-! ## Codes -/

@[simp] theorem model_of_code (m : SensorModel) : modelOfCode (modelCode m) = some m := by cases m <;> decide

@[simp] theorem level_of_bit (l : Level) : levelOfBit (levelBit l) = l := by cases l <;> decide

@[simp] theorem dir_of_bit (d : Direction) : dirOfBit (dirBit d) = d := by cases d <;> decide

@[simp] theorem attRes_of_code (r : AttRes) : attResOfCode (attResCode r) = r := by cases r <;> decide

/-! ## Words and their fields, as numbers -/

theorem toNat_append_add {n m : Nat} (x : BitVec n) (y : BitVec m) : (x ++ y).toNat = x.toNat * 2 ^ m + y.toNat := by
  rw [BitVec.toNat_append, ← Nat.shiftLeft_add_eq_or_of_lt y.isLt, Nat.shiftLeft_eq]

theorem toNat_bits {n : Nat} (v : BitVec n) (hi lo : Nat) :
    (bits v hi lo).toNat = v.toNat / 2 ^ lo % 2 ^ (hi - lo + 1) := by
  simp [bits, BitVec.extractLsb, Nat.shiftRight_eq_div_pow]

theorem hcWord_toNat (m : SensorModel) (p : BitVec 8) :
    (hcWord m p).toNat = 2 ^ 28 + (modelCode m).toNat * 2 ^ 8 + p.toNat := by
  have h : (hcWord m p).toNat = (1#4 ++ 0#18 ++ modelCode m ++ p).toNat := rfl
  rw [h, toNat_append_add, toNat_append_add, toNat_append_add]
  simp
  omega

theorem rsWord_toNat (v t : BitVec 1) (k : BitVec 2) (n : BitVec 8) :
    (rsWord v t k n).toNat = v.toNat * 2 ^ 31 + t.toNat * 2 ^ 30 + k.toNat * 2 ^ 8 + n.toNat := by
  have h : (rsWord v t k n).toNat = (v ++ t ++ 0#20 ++ k ++ n).toNat := rfl
  rw [h, toNat_append_add, toNat_append_add, toNat_append_add, toNat_append_add]
  simp
  omega

theorem cwWord_toNat (op : BitVec 4) (p : BitVec 8) (a : BitVec 20) :
    (cwWord op p a).toNat = op.toNat * 2 ^ 28 + p.toNat * 2 ^ 20 + a.toNat := by
  have h : (cwWord op p a).toNat = (op ++ p ++ a).toNat := rfl
  rw [h, toNat_append_add, toNat_append_add]
  omega

theorem rwWord_toNat (k : BitVec 2) (l : BitVec 1) (d : BitVec 20) :
    (rwWord k l d).toNat = k.toNat * 2 ^ 30 + l.toNat * 2 ^ 20 + d.toNat := by
  have h : (rwWord k l d).toNat = (k ++ 0#9 ++ l ++ d).toNat := rfl
  rw [h, toNat_append_add, toNat_append_add, toNat_append_add]
  simp
  omega

/-- The fields of an `HC` word (R71). -/
theorem hcWord_fields (m : SensorModel) (p : BitVec 8) :
    bits (hcWord m p) 31 28 = 1 ∧ bits (hcWord m p) 27 10 = 0 ∧ bits (hcWord m p) 9 8 = modelCode m ∧
      bits (hcWord m p) 7 0 = p := by
  have h1 := (modelCode m).isLt
  have h2 := p.isLt
  refine ⟨?_, ?_, ?_, ?_⟩ <;> apply BitVec.eq_of_toNat_eq <;> simp only [toNat_bits, hcWord_toNat] <;>
    simp <;> omega

/-- The fields of an `RS` word (R75). -/
theorem rsWord_fields (v t : BitVec 1) (k : BitVec 2) (n : BitVec 8) :
    bits (rsWord v t k n) 31 31 = v ∧ bits (rsWord v t k n) 30 30 = t ∧ bits (rsWord v t k n) 29 10 = 0 ∧
      bits (rsWord v t k n) 9 8 = k ∧ bits (rsWord v t k n) 7 0 = n := by
  have h1 := v.isLt
  have h2 := t.isLt
  have h3 := k.isLt
  have h4 := n.isLt
  refine ⟨?_, ?_, ?_, ?_, ?_⟩ <;> apply BitVec.eq_of_toNat_eq <;> simp only [toNat_bits, rsWord_toNat] <;>
    simp <;> omega

/-- The fields of a `CW` word (R72). -/
theorem cwWord_fields (op : BitVec 4) (p : BitVec 8) (a : BitVec 20) :
    bits (cwWord op p a) 31 28 = op ∧ bits (cwWord op p a) 27 20 = p ∧ bits (cwWord op p a) 19 0 = a ∧
      bits (cwWord op p a) 19 1 = bits a 19 1 ∧ bits (cwWord op p a) 0 0 = bits a 0 0 := by
  have h1 := op.isLt
  have h2 := p.isLt
  have h3 := a.isLt
  refine ⟨?_, ?_, ?_, ?_, ?_⟩ <;> apply BitVec.eq_of_toNat_eq <;> simp only [toNat_bits, cwWord_toNat] <;> omega

/-- The fields of an `RW` word (R73). -/
theorem rwWord_fields (k : BitVec 2) (l : BitVec 1) (d : BitVec 20) :
    bits (rwWord k l d) 31 30 = k ∧ bits (rwWord k l d) 29 21 = 0 ∧ bits (rwWord k l d) 20 20 = l ∧
      bits (rwWord k l d) 19 0 = d := by
  have h1 := k.isLt
  have h2 := l.isLt
  have h3 := d.isLt
  refine ⟨?_, ?_, ?_, ?_⟩ <;> apply BitVec.eq_of_toNat_eq <;> simp only [toNat_bits, rwWord_toNat] <;>
    simp <;> omega

/-- A one-bit argument (R72, R80): the bit stands in bit 0, the must-be-zero bits are 0. -/
theorem bitArg_fields (b : BitVec 1) : bits (0#19 ++ b : BitVec 20) 19 1 = 0 ∧ bits (0#19 ++ b : BitVec 20) 0 0 = b := by
  revert b
  decide

/-- A response's word decodes to it on CRSP. -/
theorem decodeResponse_responseWord (r : Response) : decodeResponse (responseWord r) = .ok r := by
  cases r with
  | ack => decide
  | timeout => decide
  | edge l d =>
    obtain ⟨h1, h2, h3, h4⟩ := rwWord_fields 1 (levelBit l) d
    simp only [responseWord, Response.instr, encode, decodeResponse, h1, h2, h3, h4, level_of_bit]
    rfl

/-! ## Every constructor -/

/-- Decoding the encoded operation on its port gives it back. -/
def EncodeDecode.Statement (i : Instr) : Prop := decode (portOf i) (encode i) = .ok i

theorem EncodeDecode.read (m : SensorModel) (p : Pin) : EncodeDecode.Statement (.read m p) := by
  obtain ⟨h1, h2, h3, h4⟩ := hcWord_fields m p
  simp only [EncodeDecode.Statement, decode, portOf, encode, decodeHC, h1, h2, h3, h4, model_of_code]
  rfl

theorem EncodeDecode.resultReading : EncodeDecode.Statement .resultReading := by unfold EncodeDecode.Statement; decide

theorem EncodeDecode.resultReadError (k : AttRes) (n : BitVec 8) : EncodeDecode.Statement (.resultReadError k n) := by
  obtain ⟨h1, h2, h3, h4, h5⟩ := rsWord_fields 1 1 (attResCode k) n
  simp only [EncodeDecode.Statement, decode, portOf, encode, decodeRS, h1, h2, h3, h4, h5, attRes_of_code]
  rfl

theorem EncodeDecode.setDir (p : Pin) (d : Direction) : EncodeDecode.Statement (.setDir p d) := by
  obtain ⟨h1, h2, -, h4, h5⟩ := cwWord_fields 1 p (0#19 ++ dirBit d)
  obtain ⟨h6, h7⟩ := bitArg_fields (dirBit d)
  simp only [EncodeDecode.Statement, decode, portOf, encode, decodeCW, h1, h2, h4, h5, h6, h7, dir_of_bit]
  rfl

theorem EncodeDecode.write (p : Pin) (l : Level) : EncodeDecode.Statement (.write p l) := by
  obtain ⟨h1, h2, -, h4, h5⟩ := cwWord_fields 2 p (0#19 ++ levelBit l)
  obtain ⟨h6, h7⟩ := bitArg_fields (levelBit l)
  simp only [EncodeDecode.Statement, decode, portOf, encode, decodeCW, h1, h2, h4, h5, h6, h7, level_of_bit]
  rfl

theorem EncodeDecode.waitEdge (p : Pin) (t : Dur) : EncodeDecode.Statement (.waitEdge p t) := by
  obtain ⟨h1, h2, h3, -, -⟩ := cwWord_fields 3 p t
  simp only [EncodeDecode.Statement, decode, portOf, encode, decodeCW, h1, h2, h3]
  rfl

theorem EncodeDecode.sleepUs (n : Dur) : EncodeDecode.Statement (.sleepUs n) := by
  obtain ⟨h1, h2, h3, -, -⟩ := cwWord_fields 4 0 n
  simp only [EncodeDecode.Statement, decode, portOf, encode, decodeCW, h1, h2, h3]
  rfl

theorem EncodeDecode.sleepMs (n : Dur) : EncodeDecode.Statement (.sleepMs n) := by
  obtain ⟨h1, h2, h3, -, -⟩ := cwWord_fields 5 0 n
  simp only [EncodeDecode.Statement, decode, portOf, encode, decodeCW, h1, h2, h3]
  rfl

theorem EncodeDecode.ack : EncodeDecode.Statement .ack := by unfold EncodeDecode.Statement; decide

theorem EncodeDecode.edge (l : Level) (d : Dur) : EncodeDecode.Statement (.edge l d) := by
  have h := decodeResponse_responseWord (.edge l d)
  simp only [responseWord, Response.instr] at h
  simp [EncodeDecode.Statement, decode, portOf, decodeRW, h, Response.instr]

theorem EncodeDecode.timeout : EncodeDecode.Statement .timeout := by unfold EncodeDecode.Statement; decide

theorem EncodeDecode.idle : EncodeDecode.Statement .idle := by unfold EncodeDecode.Statement; decide

theorem EncodeDecode.attStart : EncodeDecode.Statement .attStart := by unfold EncodeDecode.Statement; decide

theorem EncodeDecode.hsDirOut : EncodeDecode.Statement .hsDirOut := by unfold EncodeDecode.Statement; decide

theorem EncodeDecode.hsDriveHigh : EncodeDecode.Statement .hsDriveHigh := by unfold EncodeDecode.Statement; decide

theorem EncodeDecode.hsIdleHold : EncodeDecode.Statement .hsIdleHold := by unfold EncodeDecode.Statement; decide

theorem EncodeDecode.hsDriveLow : EncodeDecode.Statement .hsDriveLow := by unfold EncodeDecode.Statement; decide

theorem EncodeDecode.hsLowHold : EncodeDecode.Statement .hsLowHold := by unfold EncodeDecode.Statement; decide

theorem EncodeDecode.hsRelease : EncodeDecode.Statement .hsRelease := by unfold EncodeDecode.Statement; decide

theorem EncodeDecode.hsSettle : EncodeDecode.Statement .hsSettle := by unfold EncodeDecode.Statement; decide

theorem EncodeDecode.capLead : EncodeDecode.Statement .capLead := by unfold EncodeDecode.Statement; decide

theorem EncodeDecode.capAckLow : EncodeDecode.Statement .capAckLow := by unfold EncodeDecode.Statement; decide

theorem EncodeDecode.capAckHigh : EncodeDecode.Statement .capAckHigh := by unfold EncodeDecode.Statement; decide

theorem EncodeDecode.capBitLow : EncodeDecode.Statement .capBitLow := by unfold EncodeDecode.Statement; decide

theorem EncodeDecode.capBitHigh : EncodeDecode.Statement .capBitHigh := by unfold EncodeDecode.Statement; decide

theorem EncodeDecode.check : EncodeDecode.Statement .check := by unfold EncodeDecode.Statement; decide

theorem EncodeDecode.convert : EncodeDecode.Statement .convert := by unfold EncodeDecode.Statement; decide

theorem EncodeDecode.gate : EncodeDecode.Statement .gate := by unfold EncodeDecode.Statement; decide

theorem EncodeDecode.attDone : EncodeDecode.Statement .attDone := by unfold EncodeDecode.Statement; decide

theorem EncodeDecode.retryDelay : EncodeDecode.Statement .retryDelay := by unfold EncodeDecode.Statement; decide

end Sys2Proof.Laws
end

