-- ==== Sys2Proof/Laws/Ops.lean ====
section
/-! SUPPORT. Each shared operation says once everything it can do. -/

namespace Sys2Proof.Machine

/-- A `respond` step that goes on either waits, with no response on offer, or runs the clause on the decoded response. -/
theorem respondWith_next {clause : Response → State → Host.Outcome State Fault Refusal} {s t : State}
    (h : respondWith clause s = .next t) :
    (s.crsp = [] ∧ t = s) ∨
      ∃ w rest r, s.crsp = w :: rest ∧ decodeResponseFor s.cfg w = .ok r ∧ clause r { s with crsp := rest } = .next t := by
  unfold respondWith at h
  split at h
  · rename_i hc
    injection h with h
    exact .inl ⟨hc, h.symm⟩
  · rename_i w rest hc
    split at h
    · cases h
    · rename_i r hd
      exact .inr ⟨w, rest, r, hc, hd, h⟩

/-- The response on offer runs the clause. -/
theorem respondWith_offered {clause : Response → State → Host.Outcome State Fault Refusal} {s : State} {w : Word}
    {rest : List Word} {r : Response} (hc : s.crsp = w :: rest) (hd : decodeResponseFor s.cfg w = .ok r) :
    respondWith clause s = clause r { s with crsp := rest } := by
  simp only [respondWith, hc, hd]

/-- With no response on offer nothing changes. -/
theorem respondWith_waits {clause : Response → State → Host.Outcome State Fault Refusal} {s : State} (hc : s.crsp = []) :
    respondWith clause s = .next s := by
  simp only [respondWith, hc]

theorem ackThen_next {q : SeqState} {r : Response} {s t : State} (h : ackThen q r s = .next t) :
    r = .ack ∧ t = { s with pend := false, state := q } := by
  cases r <;> simp [ackThen] at h
  exact ⟨rfl, h.symm⟩

theorem expectLevel_next {want : Level} {q : SeqState} {r : Response} {s t : State}
    (h : expectLevel want q r s = .next t) :
    (∃ d, r = .edge want d ∧ t = { appendTrace want d s with pend := false, state := q }) ∨
      (∃ l d, l ≠ want ∧ r = .edge l d ∧ t = captureTimeout (appendTrace l d s)) ∨
      (r = .timeout ∧ t = captureTimeout s) := by
  cases r with
  | ack => simp [expectLevel] at h
  | timeout =>
    simp only [expectLevel] at h
    injection h with h
    exact .inr (.inr ⟨rfl, h.symm⟩)
  | edge l d =>
    simp only [expectLevel] at h
    split at h
    · rename_i hl
      subst hl
      injection h with h
      exact .inl ⟨d, rfl, h.symm⟩
    · rename_i hl
      injection h with h
      exact .inr (.inl ⟨l, d, hl, rfl, h.symm⟩)

theorem capLeadRespond_next {r : Response} {s t : State} (h : capLeadRespond r s = .next t) :
    (∃ l d, r = .edge l d ∧ t = { appendTrace l d s with pend := false, state := .capAckLow }) ∨
      (r = .timeout ∧ t = captureTimeout s) := by
  cases r with
  | ack => simp [capLeadRespond] at h
  | timeout =>
    simp only [capLeadRespond] at h
    injection h with h
    exact .inr ⟨rfl, h.symm⟩
  | edge l d =>
    simp only [capLeadRespond] at h
    injection h with h
    exact .inl ⟨l, d, rfl, h.symm⟩

theorem capBitHighRespond_next {r : Response} {s t : State} (h : capBitHighRespond r s = .next t) :
    (∃ d, r = .edge .high d ∧ t = shiftBit d { appendTrace .high d s with pend := false }) ∨
      (∃ d, r = .edge .low d ∧ t = captureTimeout (appendTrace .low d s)) ∨
      (r = .timeout ∧ t = captureTimeout s) := by
  cases r with
  | ack => simp [capBitHighRespond] at h
  | timeout =>
    simp only [capBitHighRespond] at h
    injection h with h
    exact .inr (.inr ⟨rfl, h.symm⟩)
  | edge l d =>
    cases l with
    | high =>
      simp only [capBitHighRespond] at h
      injection h with h
      exact .inl ⟨d, rfl, h.symm⟩
    | low =>
      simp only [capBitHighRespond] at h
      injection h with h
      exact .inr (.inl ⟨d, rfl, h.symm⟩)

/-- The last bit leads to `CHECK`, every other one back to `CAP_BIT_LOW` (R138). -/
theorem afterBit_succ (n : BitVec 6) : afterBit (n + 1) = if n = 39 then .check else .capBitLow := by
  revert n
  decide

/-! ## Responses -/

/-- What a `respond` step that goes on has done: the state's clause on the response it expects (R111 to R117, R134 to R138, R176). -/
inductive Responded (r : Response) (s t : State) : Prop where
  | hsDirOut (hq : s.state = .hsDirOut) (hr : r = .ack)
      (ht : t = { completeSetDir s.pin .output s with pend := false, state := .hsDriveHigh })
  | hsDriveHigh (hq : s.state = .hsDriveHigh) (hr : r = .ack)
      (ht : t = { completeWrite s.pin .high s with pend := false, state := .hsIdleHold })
  | hsIdleHold (hq : s.state = .hsIdleHold) (hr : r = .ack) (ht : t = { s with pend := false, state := .hsDriveLow })
  | hsDriveLow (hq : s.state = .hsDriveLow) (hr : r = .ack)
      (ht : t = { completeWrite s.pin .low s with pend := false, state := .hsLowHold })
  | hsLowHold (hq : s.state = .hsLowHold) (hr : r = .ack) (ht : t = { s with pend := false, state := .hsRelease })
  | hsRelease (hq : s.state = .hsRelease) (hr : r = .ack)
      (ht : t = { completeSetDir s.pin .input s with pend := false, state := .hsSettle })
  | hsSettle (hq : s.state = .hsSettle) (hr : r = .ack) (ht : t = { s with pend := false, state := .capLead })
  | retryDelay (hq : s.state = .retryDelay) (hr : r = .ack) (ht : t = { s with pend := false, state := .attStart })
  | lead (l : Level) (d : Dur) (hq : s.state = .capLead) (hr : r = .edge l d)
      (ht : t = { appendTrace l d s with pend := false, state := .capAckLow })
  | ackLow (d : Dur) (hq : s.state = .capAckLow) (hr : r = .edge .low d)
      (ht : t = { appendTrace .low d s with pend := false, state := .capAckHigh })
  | ackHigh (d : Dur) (hq : s.state = .capAckHigh) (hr : r = .edge .high d)
      (ht : t = { appendTrace .high d s with pend := false, state := .capBitLow })
  | bitLow (d : Dur) (hq : s.state = .capBitLow) (hr : r = .edge .low d)
      (ht : t = { appendTrace .low d s with pend := false, state := .capBitHigh })
  | bitHigh (d : Dur) (hq : s.state = .capBitHigh) (hr : r = .edge .high d)
      (ht : t = shiftBit d { appendTrace .high d s with pend := false })
  | wrongLevel (l : Level) (d : Dur)
      (hq : (s.state = .capAckLow ∧ l = .high) ∨ (s.state = .capAckHigh ∧ l = .low) ∨
        (s.state = .capBitLow ∧ l = .high) ∨ (s.state = .capBitHigh ∧ l = .low))
      (hr : r = .edge l d) (ht : t = captureTimeout (appendTrace l d s))
  | timeout (hq : isCaptureState s.state = true) (hr : r = .timeout) (ht : t = captureTimeout s)

theorem eq_high_of_ne_low {l : Level} (h : l ≠ .low) : l = .high := by cases l <;> simp_all

theorem eq_low_of_ne_high {l : Level} (h : l ≠ .high) : l = .low := by cases l <;> simp_all

/-- The inversion of the `respond` step. -/
theorem respondIn_next {r : Response} {s t : State} (h : respondIn r s = .next t) : Responded r s t := by
  unfold respondIn at h
  split at h
  case h_1 hq => obtain ⟨rfl, rfl⟩ := ackThen_next h; exact .hsDirOut hq rfl rfl
  case h_2 hq => obtain ⟨rfl, rfl⟩ := ackThen_next h; exact .hsDriveHigh hq rfl rfl
  case h_3 hq => obtain ⟨rfl, rfl⟩ := ackThen_next h; exact .hsIdleHold hq rfl rfl
  case h_4 hq => obtain ⟨rfl, rfl⟩ := ackThen_next h; exact .hsDriveLow hq rfl rfl
  case h_5 hq => obtain ⟨rfl, rfl⟩ := ackThen_next h; exact .hsLowHold hq rfl rfl
  case h_6 hq => obtain ⟨rfl, rfl⟩ := ackThen_next h; exact .hsRelease hq rfl rfl
  case h_7 hq => obtain ⟨rfl, rfl⟩ := ackThen_next h; exact .hsSettle hq rfl rfl
  case h_8 hq =>
    obtain ⟨l, d, rfl, rfl⟩ | ⟨rfl, rfl⟩ := capLeadRespond_next h
    · exact .lead l d hq rfl rfl
    · exact .timeout (by simp [isCaptureState, hq]) rfl rfl
  case h_9 hq =>
    obtain ⟨d, rfl, rfl⟩ | ⟨l, d, hl, rfl, rfl⟩ | ⟨rfl, rfl⟩ := expectLevel_next h
    · exact .ackLow d hq rfl rfl
    · exact .wrongLevel l d (.inl ⟨hq, eq_high_of_ne_low hl⟩) rfl rfl
    · exact .timeout (by simp [isCaptureState, hq]) rfl rfl
  case h_10 hq =>
    obtain ⟨d, rfl, rfl⟩ | ⟨l, d, hl, rfl, rfl⟩ | ⟨rfl, rfl⟩ := expectLevel_next h
    · exact .ackHigh d hq rfl rfl
    · exact .wrongLevel l d (.inr (.inl ⟨hq, eq_low_of_ne_high hl⟩)) rfl rfl
    · exact .timeout (by simp [isCaptureState, hq]) rfl rfl
  case h_11 hq =>
    obtain ⟨d, rfl, rfl⟩ | ⟨l, d, hl, rfl, rfl⟩ | ⟨rfl, rfl⟩ := expectLevel_next h
    · exact .bitLow d hq rfl rfl
    · exact .wrongLevel l d (.inr (.inr (.inl ⟨hq, eq_high_of_ne_low hl⟩))) rfl rfl
    · exact .timeout (by simp [isCaptureState, hq]) rfl rfl
  case h_12 hq =>
    obtain ⟨d, rfl, rfl⟩ | ⟨d, rfl, rfl⟩ | ⟨rfl, rfl⟩ := capBitHighRespond_next h
    · exact .bitHigh d hq rfl rfl
    · exact .wrongLevel .low d (.inr (.inr (.inr ⟨hq, rfl⟩))) rfl rfl
    · exact .timeout (by simp [isCaptureState, hq]) rfl rfl
  case h_13 hq => obtain ⟨rfl, rfl⟩ := ackThen_next h; exact .retryDelay hq rfl rfl
  all_goals cases h

/-! ## Issuing -/

/-- The `issue` step of a command, by its row. -/
def issued (c : Instr) (s : State) : State :=
  match c with
  | .setDir p d => issueSetDir p d s
  | .write p l => issueWrite p l s
  | .waitEdge p t => issueWaitEdge p t s
  | .sleepUs n => issueSleepUs n s
  | .sleepMs n => issueSleepMs n s
  | _ => s

end Sys2Proof.Machine
end

