-- ==== Sys2Proof/Laws/Words.lean ====
section
/-! SUPPORT. The words as the spec writes them with `|` and `<<` (spec/30_encoding.md R71 to R75) are the words the encoder joins from fields. -/

namespace Sys2Proof.Laws

theorem or_toNat_of_disjoint (a b : Word) (k : Nat) (ha : a.toNat % 2^k = 0) (hb : b.toNat < 2^k) : (a ||| b).toNat = a.toNat + b.toNat := by
  rw [BitVec.toNat_or]
  obtain ⟨c, hc⟩ := Nat.dvd_of_mod_eq_zero ha
  rw [hc, ← Nat.two_pow_add_eq_or_of_lt hb]

theorem toNat_pin_shift (p : Pin) : (p.setWidth 32 <<< 20).toNat = p.toNat * 2^20 := by
  have : p.toNat < 2^8 := p.isLt
  simp [BitVec.toNat_shiftLeft, Nat.shiftLeft_eq]; omega

theorem toNat_kind_shift (k : BitVec 2) : (k.setWidth 32 <<< 8).toNat = k.toNat * 2^8 := by
  have := k.isLt
  simp [BitVec.toNat_shiftLeft, Nat.shiftLeft_eq]; omega

theorem toNat_level_shift (k : BitVec 1) : (k.setWidth 32 <<< 20).toNat = k.toNat * 2^20 := by
  have := k.isLt
  simp [BitVec.toNat_shiftLeft, Nat.shiftLeft_eq]; omega

theorem readWord_eq (m : SensorModel) (p : Pin) : (0x10000000#32 ||| ((modelCode m).setWidth 32 <<< 8) ||| p.setWidth 32 : Word) = hcWord m p := by
  have hp : p.toNat < 2^8 := p.isLt
  have hk := toNat_kind_shift (modelCode m)
  have hm := (modelCode m).isLt
  apply BitVec.eq_of_toNat_eq
  have h1 := or_toNat_of_disjoint 0x10000000#32 ((modelCode m).setWidth 32 <<< 8) 28 (by decide) (by rw [hk]; omega)
  rw [or_toNat_of_disjoint _ _ 8 (by rw [h1, hk]; simp) (by simp; omega), h1, hk, hcWord_toNat]
  simp; omega

theorem readErrorWord_eq (k : AttRes) (n : BitVec 8) : (0xC0000000#32 ||| ((attResCode k).setWidth 32 <<< 8) ||| n.setWidth 32 : Word) = rsWord 1 1 (attResCode k) n := by
  have hp := n.isLt
  have hk := toNat_kind_shift (attResCode k)
  have hm := (attResCode k).isLt
  apply BitVec.eq_of_toNat_eq
  have h1 := or_toNat_of_disjoint 0xC0000000#32 ((attResCode k).setWidth 32 <<< 8) 28 (by decide) (by rw [hk]; omega)
  rw [or_toNat_of_disjoint _ _ 8 (by rw [h1, hk]; simp) (by simp; omega), h1, hk, rsWord_toNat]
  simp; omega

theorem toNat_dur (d : Dur) : (d.setWidth 32).toNat = d.toNat := by have : d.toNat < 2^20 := d.isLt; simp; omega

theorem waitWord_eq (p : Pin) (d : Dur) : (0x30000000#32 ||| (p.setWidth 32 <<< 20) ||| d.setWidth 32 : Word) = cwWord 3 p d := by
  have hp : p.toNat < 2^8 := p.isLt
  have hd : d.toNat < 2^20 := d.isLt
  apply BitVec.eq_of_toNat_eq
  have h1 := or_toNat_of_disjoint 0x30000000#32 (p.setWidth 32 <<< 20) 28 (by decide) (by rw [toNat_pin_shift]; omega)
  rw [or_toNat_of_disjoint _ _ 20 (by rw [h1, toNat_pin_shift]; simp) (by rw [toNat_dur]; omega), h1, toNat_pin_shift, toNat_dur, cwWord_toNat]
  simp

theorem sleepUsWord_eq (d : Dur) : (0x40000000#32 ||| d.setWidth 32 : Word) = cwWord 4 0 d := by
  have hd : d.toNat < 2^20 := d.isLt
  apply BitVec.eq_of_toNat_eq
  rw [or_toNat_of_disjoint 0x40000000#32 _ 20 (by decide) (by rw [toNat_dur]; omega), toNat_dur, cwWord_toNat]
  simp

theorem sleepMsWord_eq (d : Dur) : (0x50000000#32 ||| d.setWidth 32 : Word) = cwWord 5 0 d := by
  have hd : d.toNat < 2^20 := d.isLt
  apply BitVec.eq_of_toNat_eq
  rw [or_toNat_of_disjoint 0x50000000#32 _ 20 (by decide) (by rw [toNat_dur]; omega), toNat_dur, cwWord_toNat]
  simp

theorem edgeWord_eq (l : Level) (d : Dur) : (0x40000000#32 ||| ((levelBit l).setWidth 32 <<< 20) ||| d.setWidth 32 : Word) = rwWord 1 (levelBit l) d := by
  have hd : d.toNat < 2^20 := d.isLt
  have hl := (levelBit l).isLt
  apply BitVec.eq_of_toNat_eq
  have h1 := or_toNat_of_disjoint 0x40000000#32 ((levelBit l).setWidth 32 <<< 20) 28 (by decide) (by rw [toNat_level_shift]; omega)
  rw [or_toNat_of_disjoint _ _ 20 (by rw [h1, toNat_level_shift]; simp) (by rw [toNat_dur]; omega), h1, toNat_level_shift, toNat_dur, rwWord_toNat]
  simp

theorem toNat_bit (b : BitVec 1) : (b.setWidth 32).toNat = b.toNat := by have := b.isLt; simp; omega

theorem setDirWord_eq (p : Pin) (d : Direction) : (0x10000000#32 ||| (p.setWidth 32 <<< 20) ||| (dirBit d).setWidth 32 : Word) = cwWord 1 p (0#19 ++ dirBit d) := by
  have hp : p.toNat < 2^8 := p.isLt
  have hd := (dirBit d).isLt
  apply BitVec.eq_of_toNat_eq
  have h1 := or_toNat_of_disjoint 0x10000000#32 (p.setWidth 32 <<< 20) 28 (by decide) (by rw [toNat_pin_shift]; omega)
  rw [or_toNat_of_disjoint _ _ 20 (by rw [h1, toNat_pin_shift]; simp) (by rw [toNat_bit]; omega), h1, toNat_pin_shift, toNat_bit, cwWord_toNat, toNat_append_add]
  simp

theorem writeWord_eq (p : Pin) (d : Level) : (0x20000000#32 ||| (p.setWidth 32 <<< 20) ||| (levelBit d).setWidth 32 : Word) = cwWord 2 p (0#19 ++ levelBit d) := by
  have hp : p.toNat < 2^8 := p.isLt
  have hd := (levelBit d).isLt
  apply BitVec.eq_of_toNat_eq
  have h1 := or_toNat_of_disjoint 0x20000000#32 (p.setWidth 32 <<< 20) 28 (by decide) (by rw [toNat_pin_shift]; omega)
  rw [or_toNat_of_disjoint _ _ 20 (by rw [h1, toNat_pin_shift]; simp) (by rw [toNat_bit]; omega), h1, toNat_pin_shift, toNat_bit, cwWord_toNat, toNat_append_add]
  simp

theorem setDirOutWord_eq (p : Pin) : (0x10000001#32 ||| (p.setWidth 32 <<< 20) : Word) = encode (.setDir p .output) := by
  show _ = cwWord 1 p (0#19 ++ dirBit .output)
  rw [← setDirWord_eq, BitVec.or_assoc, BitVec.or_comm (p.setWidth 32 <<< 20), ← BitVec.or_assoc]; rfl

theorem setDirInWord_eq (p : Pin) : (0x10000000#32 ||| (p.setWidth 32 <<< 20) : Word) = encode (.setDir p .input) := by
  show _ = cwWord 1 p (0#19 ++ dirBit .input)
  rw [← setDirWord_eq, BitVec.or_assoc, BitVec.or_comm (p.setWidth 32 <<< 20), ← BitVec.or_assoc]; rfl

theorem writeHighWord_eq (p : Pin) : (0x20000001#32 ||| (p.setWidth 32 <<< 20) : Word) = encode (.write p .high) := by
  show _ = cwWord 2 p (0#19 ++ levelBit .high)
  rw [← writeWord_eq, BitVec.or_assoc, BitVec.or_comm (p.setWidth 32 <<< 20), ← BitVec.or_assoc]; rfl

theorem writeLowWord_eq (p : Pin) : (0x20000000#32 ||| (p.setWidth 32 <<< 20) : Word) = encode (.write p .low) := by
  show _ = cwWord 2 p (0#19 ++ levelBit .low)
  rw [← writeWord_eq, BitVec.or_assoc, BitVec.or_comm (p.setWidth 32 <<< 20), ← BitVec.or_assoc]; rfl

theorem decodeResponse_ack : decodeResponse 0x00000000 = .ok .ack := by decide

theorem decodeResponse_timeout : decodeResponse 0x80000000 = .ok .timeout := by decide

theorem decodeResponse_edge (l : Level) (d : Dur) : decodeResponse (0x40000000#32 ||| ((levelBit l).setWidth 32 <<< 20) ||| d.setWidth 32) = .ok (.edge l d) := by
  rw [edgeWord_eq]; exact decodeResponse_responseWord (.edge l d)

/-! ## The widths of an instance (spec/00_scope.md R8) -/

@[simp] theorem pinFits_iff (c : Config) (p : Pin) : c.pinFits p = true ↔ p.toNat < 2 ^ c.pinW := by simp [Config.pinFits]

@[simp] theorem durFits_iff (c : Config) (d : Dur) : c.durFits d = true ↔ d.toNat < 2 ^ c.durW := by simp [Config.durFits]

/-- An instance's decoder is the format's decoder on operands of the instance's widths. -/
theorem decodeFor_ok {c : Config} {p : Port} {w : Word} {i : Instr} :
    decodeFor c p w = .ok i ↔ decode p w = .ok i ∧ i.fits c = true := by
  unfold decodeFor
  cases h : decode p w with
  | error e => simp
  | ok j => by_cases hf : j.fits c = true <;> simp [hf] <;> rintro rfl <;> simpa using hf

theorem decodeResponseFor_ok {c : Config} {w : Word} {r : Response} :
    decodeResponseFor c w = .ok r ↔ decodeResponse w = .ok r ∧ r.instr.fits c = true := by
  unfold decodeResponseFor
  cases h : decodeResponse w with
  | error e => simp
  | ok q => by_cases hf : q.instr.fits c = true <;> simp [hf] <;> rintro rfl <;> simpa using hf

/-- On CRSP the two agree. -/
theorem decodeFor_crsp {c : Config} {w : Word} {r : Response} (h : decodeResponseFor c w = .ok r) :
    decodeFor c .crsp w = .ok r.instr := by
  obtain ⟨hd, hf⟩ := decodeResponseFor_ok.1 h
  exact decodeFor_ok.2 ⟨by simp [decode, decodeRW, hd], hf⟩

/-- The full widths of the fields shut nothing out. -/
theorem fits_of_full_widths {c : Config} (hp : c.pinW = 8) (hd : c.durW = 20) (i : Instr) : i.fits c = true := by
  have h1 : ∀ p : Pin, c.pinFits p = true := fun p => by rw [pinFits_iff, hp]; exact p.isLt
  have h2 : ∀ d : Dur, c.durFits d = true := fun d => by rw [durFits_iff, hd]; exact d.isLt
  cases i <;> simp only [Instr.fits, h1, h2, Bool.and_self]

theorem decodeResponseFor_ack (c : Config) : decodeResponseFor c 0x00000000 = .ok .ack :=
  decodeResponseFor_ok.2 ⟨decodeResponse_ack, rfl⟩

theorem decodeResponseFor_timeout (c : Config) : decodeResponseFor c 0x80000000 = .ok .timeout :=
  decodeResponseFor_ok.2 ⟨decodeResponse_timeout, rfl⟩

theorem decodeResponseFor_edge {c : Config} (l : Level) {d : Dur} (h : d.toNat < 2 ^ c.durW) :
    decodeResponseFor c (0x40000000#32 ||| ((levelBit l).setWidth 32 <<< 20) ||| d.setWidth 32) = .ok (.edge l d) :=
  decodeResponseFor_ok.2 ⟨decodeResponse_edge l d, (durFits_iff c d).2 h⟩

theorem decodeResponseFor_responseWord {c : Config} {r : Response} (h : r.instr.fits c = true) :
    decodeResponseFor c (responseWord r) = .ok r :=
  decodeResponseFor_ok.2 ⟨decodeResponse_responseWord r, h⟩

theorem decodeFor_read {c : Config} (m : SensorModel) {p : Pin} (h : p.toNat < 2 ^ c.pinW) :
    decodeFor c .hcmd (0x10000000#32 ||| ((modelCode m).setWidth 32 <<< 8) ||| p.setWidth 32) = .ok (.read m p) := by
  refine decodeFor_ok.2 ⟨?_, (pinFits_iff c p).2 h⟩
  rw [readWord_eq]
  exact EncodeDecode.read m p

/-- What `Config.wf` says of the widths (R8, R9). -/
theorem widths_of_wf {c : Config} (h : c.wf = true) :
    c.pinW ≤ 8 ∧ c.durW ≤ 20 ∧ (∀ m, c.durFits (c.record m).startHoldMs = true) ∧ c.durFits c.tIdleHoldUs = true
      ∧ c.durFits c.tSettleUs = true ∧ c.durFits c.edgeTimeoutUs = true ∧ c.durFits c.retryDelayMs = true := by
  have hw : c.widthsOk = true := List.all_eq_true.1 h c.widthsOk (List.mem_of_getLast? rfl)
  simp only [Config.widthsOk, List.all_cons, id, Bool.and_eq_true, decide_eq_true_eq] at hw
  obtain ⟨h1, h2, h3, h4, h5, h6, h7, h8, h9, -⟩ := hw
  exact ⟨h1, h2, fun m => by cases m <;> assumption, h6, h7, h8, h9⟩

end Sys2Proof.Laws
end

