-- ==== Sys2Proof/Laws/Step.lean ====
section
/-! SUPPORT. What one step can do, said once: the inversion of `step` (spec/00_scope.md R12, spec/10_state.md R23). -/

namespace Sys2Proof.Machine

/-- Everything a step that goes on can have done. -/
inductive Transition (s t : State) : Prop where
  | idleWait (hq : s.state = .idle) (hw : s.hcmd = []) (ht : t = s)
  | accept (w : Word) (rest : List Word) (m : SensorModel) (p : Pin) (hq : s.state = .idle) (hw : s.hcmd = w :: rest)
      (hd : decodeFor s.cfg .hcmd w = .ok (.read m p)) (ht : t = acceptRead m p { s with hcmd := rest })
  | start (hq : s.state = .attStart) (ht : t = startAttempt s)
  | issue (c : Instr) (hc : commandOf s = some c) (hp : s.pend = false) (ht : t = issued c s)
  | wait (hq : isCommandState s.state = true) (hp : s.pend = true) (hr : s.crsp = []) (ht : t = s)
  | respond (w : Word) (rest : List Word) (r : Response) (hq : isCommandState s.state = true) (hp : s.pend = true)
      (hr : s.crsp = w :: rest) (hd : decodeResponseFor s.cfg w = .ok r) (ht : Responded r { s with crsp := rest } t)
  | checkOk (hq : s.state = .check) (hk : ckOk s = true) (ht : t = { s with state := .convert })
  | checkFail (hq : s.state = .check) (hk : ckOk s = false) (ht : t = attemptFail .checksumMismatch s)
  | convert (hq : s.state = .convert) (ht : t = { s with
      h10 := (frameTenths s).h, tNeg := (frameTenths s).s, tMag := (frameTenths s).t,
      humF := toFloat s.cfg.floatFmt 0 (frameTenths s).h.toNat,
      tempF := toFloat s.cfg.floatFmt (frameTenths s).s (frameTenths s).t.toNat,
      state := .gate })
  | gateOk (hq : s.state = .gate) (hh : hOk s = true) (hk : tOk s = true)
      (ht : t = { s with attRes := .success, state := .attDone })
  | gateFail (hq : s.state = .gate) (hk : hOk s = false ∨ tOk s = false) (ht : t = attemptFail .implausibleValue s)
  | reading (hq : s.state = .attDone) (hk : s.attRes = .success) (ht : t = publishReading s)
  | readError (hq : s.state = .attDone) (hk : s.attRes ≠ .success) (ha : s.attempts = s.cfg.attemptCap)
      (ht : t = publishReadError { s with lastKind := s.attRes })
  | retry (hq : s.state = .attDone) (hk : s.attRes ≠ .success) (ha : s.attempts ≠ s.cfg.attemptCap)
      (ht : t = { s with lastKind := s.attRes, state := .retryDelay })

/-- A host word that decodes is a READ. -/
theorem decodeHC_ok {w : Word} {i : Instr} (h : decodeHC w = .ok i) : ∃ m p, i = .read m p := by
  unfold decodeHC at h
  split at h
  · cases h
  · split at h
    · cases h
    · split at h
      · cases h
      · injection h with h
        exact ⟨_, _, h.symm⟩

/-- The inversion of the micro-operations of a command state: issue, wait, or the state's clause. -/
theorem command_next {s t : State} {clause : Response → State → Host.Outcome State Fault Refusal} {c : Instr}
    (hq : isCommandState s.state = true) (hc : commandOf s = some c)
    (hcl : ∀ r rest, clause r { s with crsp := rest } = respondIn r { s with crsp := rest })
    (h : (if s.pend then respondWith clause s else .next (issued c s)) = .next t) : Transition s t := by
  split at h
  · rename_i hp
    obtain ⟨hr, rfl⟩ | ⟨w, rest, r, hr, hd, hk⟩ := respondWith_next h
    · exact .wait hq hp hr rfl
    · exact .respond w rest r hq hp hr hd (respondIn_next (hcl r rest ▸ hk))
  · rename_i hp
    injection h with h
    exact .issue c hc (by simpa using hp) h.symm

/-- The inversion of `step`. -/
theorem step_cases {s t : State} (h : step s = .next t) : s.cfg.wf = true ∧ Transition s t := by
  unfold step at h
  split at h
  · rename_i hwf
    refine ⟨hwf, ?_⟩
    rw [fetch] at h
    cases hq : s.state <;> rw [hq] at h <;> simp only [microOp, exec] at h
    case idle =>
      unfold execIdle at h
      split at h
      · rename_i hw
        injection h with h
        exact .idleWait hq hw h.symm
      · rename_i w rest hw
        split at h
        · rename_i m p hd
          injection h with h
          exact .accept w rest m p hq hw hd h.symm
        · cases h
    case attStart =>
      injection h with h
      exact .start hq h.symm
    case check =>
      unfold execCheck at h
      split at h
      · rename_i hk
        injection h with h
        exact .checkOk hq hk h.symm
      · rename_i hk
        injection h with h
        exact .checkFail hq (by simpa using hk) h.symm
    case convert =>
      injection h with h
      exact .convert hq h.symm
    case gate =>
      unfold execGate at h
      split at h
      · rename_i hk
        rw [Bool.and_eq_true] at hk
        injection h with h
        exact .gateOk hq hk.1 hk.2 h.symm
      · rename_i hk
        injection h with h
        refine .gateFail hq ?_ h.symm
        cases hh : hOk s <;> cases ht : tOk s <;> simp_all
    case attDone =>
      unfold execAttDone at h
      split at h
      · rename_i hk
        injection h with h
        exact .reading hq hk h.symm
      · rename_i hk
        split at h
        · rename_i ha
          injection h with h
          exact .readError hq hk ha h.symm
        · rename_i ha
          injection h with h
          exact .retry hq hk ha h.symm
    case hsDirOut =>
      exact command_next (clause := hsDirOutRespond) (c := .setDir s.pin .output) (by rw [hq]; rfl) (by simp only [commandOf, hq])
        (fun r rest => by simp only [respondIn, hq]) h
    case hsDriveHigh =>
      exact command_next (clause := hsDriveHighRespond) (c := .write s.pin .high) (by rw [hq]; rfl) (by simp only [commandOf, hq])
        (fun r rest => by simp only [respondIn, hq]) h
    case hsIdleHold =>
      exact command_next (clause := hsIdleHoldRespond) (c := .sleepUs s.cfg.tIdleHoldUs) (by rw [hq]; rfl) (by simp only [commandOf, hq])
        (fun r rest => by simp only [respondIn, hq]) h
    case hsDriveLow =>
      exact command_next (clause := hsDriveLowRespond) (c := .write s.pin .low) (by rw [hq]; rfl) (by simp only [commandOf, hq])
        (fun r rest => by simp only [respondIn, hq]) h
    case hsLowHold =>
      exact command_next (clause := hsLowHoldRespond) (c := .sleepMs (s.cfg.record s.model).startHoldMs) (by rw [hq]; rfl) (by simp only [commandOf, hq])
        (fun r rest => by simp only [respondIn, hq]) h
    case hsRelease =>
      exact command_next (clause := hsReleaseRespond) (c := .setDir s.pin .input) (by rw [hq]; rfl) (by simp only [commandOf, hq])
        (fun r rest => by simp only [respondIn, hq]) h
    case hsSettle =>
      exact command_next (clause := hsSettleRespond) (c := .sleepUs s.cfg.tSettleUs) (by rw [hq]; rfl) (by simp only [commandOf, hq])
        (fun r rest => by simp only [respondIn, hq]) h
    case capLead =>
      exact command_next (clause := capLeadRespond) (c := .waitEdge s.pin s.cfg.edgeTimeoutUs) (by rw [hq]; rfl) (by simp only [commandOf, hq])
        (fun r rest => by simp only [respondIn, hq]) h
    case capAckLow =>
      exact command_next (clause := capAckLowRespond) (c := .waitEdge s.pin s.cfg.edgeTimeoutUs) (by rw [hq]; rfl) (by simp only [commandOf, hq])
        (fun r rest => by simp only [respondIn, hq]) h
    case capAckHigh =>
      exact command_next (clause := capAckHighRespond) (c := .waitEdge s.pin s.cfg.edgeTimeoutUs) (by rw [hq]; rfl) (by simp only [commandOf, hq])
        (fun r rest => by simp only [respondIn, hq]) h
    case capBitLow =>
      exact command_next (clause := capBitLowRespond) (c := .waitEdge s.pin s.cfg.edgeTimeoutUs) (by rw [hq]; rfl) (by simp only [commandOf, hq])
        (fun r rest => by simp only [respondIn, hq]) h
    case capBitHigh =>
      exact command_next (clause := capBitHighRespond) (c := .waitEdge s.pin s.cfg.edgeTimeoutUs) (by rw [hq]; rfl) (by simp only [commandOf, hq])
        (fun r rest => by simp only [respondIn, hq]) h
    case retryDelay =>
      exact command_next (clause := retryDelayRespond) (c := .sleepMs s.cfg.retryDelayMs) (by rw [hq]; rfl) (by simp only [commandOf, hq])
        (fun r rest => by simp only [respondIn, hq]) h
  · cases h

/-- A step on a well-formed configuration is the micro-operation that `STATE` names. -/
theorem step_eq {s : State} (h : s.cfg.wf = true) : step s = exec (microOp s.state) s := by
  simp [step, h, fetch]

/-- No step writes the configuration (R37, R60). -/
theorem step_cfg {s t : State} (h : step s = .next t) : t.cfg = s.cfg := by
  obtain ⟨-, h⟩ := step_cases h
  cases h with
  | issue c hc _ ht =>
    subst ht
    cases hq : s.state <;> simp [commandOf, hq] at hc <;> subst hc <;> rfl
  | respond w rest r _ _ _ _ ht => cases ht <;> subst_vars <;> rfl
  | _ => subst_vars; rfl

/-- The command a state issues, state by state. -/
theorem commandOf_cases {s : State} {c : Instr} (h : commandOf s = some c) :
    (s.state = .hsDirOut ∧ c = .setDir s.pin .output) ∨ (s.state = .hsDriveHigh ∧ c = .write s.pin .high) ∨
      (s.state = .hsIdleHold ∧ c = .sleepUs s.cfg.tIdleHoldUs) ∨ (s.state = .hsDriveLow ∧ c = .write s.pin .low) ∨
      (s.state = .hsLowHold ∧ c = .sleepMs (s.cfg.record s.model).startHoldMs) ∨
      (s.state = .hsRelease ∧ c = .setDir s.pin .input) ∨ (s.state = .hsSettle ∧ c = .sleepUs s.cfg.tSettleUs) ∨
      (isCaptureState s.state = true ∧ c = .waitEdge s.pin s.cfg.edgeTimeoutUs) ∨
      (s.state = .retryDelay ∧ c = .sleepMs s.cfg.retryDelayMs) := by
  cases hq : s.state <;> simp [commandOf, hq] at h <;> subst h <;> simp [isCaptureState]

/-- The command a state issues has operands of the instance's widths (R8, R9). -/
theorem commandOf_fits {s : State} {c : Instr} (hwf : s.cfg.wf = true) (hp : s.cfg.pinFits s.pin = true) (h : commandOf s = some c) :
    c.fits s.cfg = true := by
  have hw := Sys2Proof.Laws.widths_of_wf hwf
  have hold := hw.2.2.1 s.model
  unfold commandOf at h
  cases hq : s.state <;> simp only [hq, Option.some.injEq, reduceCtorEq] at h <;> subst h <;>
    simp only [Instr.fits, hp, hold, hw, Bool.and_self]

end Sys2Proof.Machine
end

