-- ==== Sys2Proof/Tests/Slice0.lean ====
section
/-! SUPPORT. The model's own tests: ill-formed terms are refused; words written out from spec/30_encoding.md and spec/95_test_vectors.md decode to what they stand for; single steps
against the vectors of spec/95_test_vectors.md; and a witness for the hypotheses of every statement that has some. -/

namespace Sys2Proof.Tests

open Sys2Proof Sys2Proof.Machine

/-! ## Helpers -/

/-- The next state, where there is one. -/
def nextOf (o : Host.Outcome State Fault Refusal) : Option State :=
  match o with
  | .next s => some s
  | .fault _ => none
  | .refused _ => none

def faultOf (o : Host.Outcome State Fault Refusal) : Option Fault :=
  match o with
  | .fault f => some f
  | .next _ => none
  | .refused _ => none

def refusalOf (o : Host.Outcome State Fault Refusal) : Option Refusal :=
  match o with
  | .refused r => some r
  | .next _ => none
  | .fault _ => none

/-- A DHT22 read of pin 4 in its first attempt, in a given state. -/
def inState (q : SeqState) : State := { State.reset with state := q, model := .dht22, pin := 4, attempts := 1 }

/-- The same while its command is outstanding, with a response on offer. -/
def answered (q : SeqState) (w : Word) : State := { inState q with pend := true, crsp := [w] }

/-- The same with the pin's line known. -/
def onLine (s : State) (d : Direction) (l : Level) : State := { s with lines := [(4, { dir := some d, out := some l })] }

/-- The same with a frame in `SR`. -/
def withFrame (q : SeqState) (m : SensorModel) (f : Frame) : State := { inState q with model := m, sr := f, bitcnt := 40 }

/-- An instance with narrower widths than the default (R8). -/
def narrow : Config := { Config.default with pinW := 4, durW := 11 }

/-! ## Ill-formed terms are refused (WellFormed, R103; Config, R9; the line space) -/

theorem test_wf_refuses_kind_zero : Instr.wf (.resultReadError .success 5) = false := by decide
theorem test_wf_refuses_zero_attempts : Instr.wf (.resultReadError .timeout 0) = false := by decide
theorem test_wf_accepts : Instr.wf (.resultReadError .implausibleValue 255) = true ∧ Instr.wf (.read .am2302 255) = true
    ∧ Instr.wf .attDone = true := by decide

theorem test_config_default : Config.default.wf = true := by decide
theorem test_config_dht11_hold : ({ Config.default with dht11 := ⟨17, 50, .whole⟩ } : Config).wf = false := by decide
theorem test_config_dht22_hold :
    ({ Config.default with dht22 := ⟨0, 50, .tenths⟩, am2302 := ⟨0, 50, .tenths⟩ } : Config).wf = false := by decide
theorem test_config_short_hold :
    ({ Config.default with dht22 := ⟨1, 50, .tenths⟩, am2302 := ⟨1, 50, .tenths⟩ } : Config).wf = true := by decide
theorem test_config_unequal_records : ({ Config.default with am2302 := ⟨19, 50, .tenths⟩ } : Config).wf = false := by decide
theorem test_config_cap : ({ Config.default with attemptCap := 0 } : Config).wf = false
    ∧ ({ Config.default with attemptCap := 1 } : Config).wf = true := by decide
theorem test_config_threshold_zero : ({ Config.default with dht11 := ⟨18, 0, .whole⟩ } : Config).wf = false := by decide
theorem test_config_threshold_timeout : ({ Config.default with edgeTimeoutUs := 50 } : Config).wf = false
    ∧ ({ Config.default with edgeTimeoutUs := 51 } : Config).wf = true := by decide
theorem test_config_formula : ({ Config.default with dht11 := ⟨18, 50, .tenths⟩ } : Config).wf = false
    ∧ ({ Config.default with dht22 := ⟨18, 50, .whole⟩, am2302 := ⟨18, 50, .whole⟩ } : Config).wf = false := by decide

theorem test_config_widths : ({ Config.default with pinW := 4, durW := 11 } : Config).wf = true
    ∧ ({ Config.default with pinW := 9 } : Config).wf = false ∧ ({ Config.default with durW := 21 } : Config).wf = false := by decide
theorem test_config_operands_fit : ({ Config.default with durW := 10 } : Config).wf = false
    ∧ ({ Config.default with durW := 10, retryDelayMs := 1023 } : Config).wf = true
    ∧ ({ Config.default with durW := 10, retryDelayMs := 1023, tIdleHoldUs := 1024 } : Config).wf = false := by decide

theorem test_lines_form : Lines.wf [(0, ⟨some .output, none⟩), (255, ⟨none, some .low⟩)] = true
    ∧ Lines.wf [(4, ⟨some .output, none⟩), (4, ⟨some .input, none⟩)] = false
    ∧ Lines.wf [(256, ⟨some .output, none⟩)] = false ∧ Lines.wf [(4, ⟨none, none⟩)] = false := by decide

/-! ## Decoding, words written out (95_test_vectors.md section 2; R23 for the state codes) -/

theorem test_decode_HC : decode .hcmd 0x10000000 = .ok (.read .dht11 0) ∧ decode .hcmd 0x10000104 = .ok (.read .dht22 4)
    ∧ decode .hcmd 0x10000211 = .ok (.read .am2302 17) ∧ decode .hcmd 0x10000016 = .ok (.read .dht11 22)
    ∧ decode .hcmd 0x100002FF = .ok (.read .am2302 255) := by decide
theorem test_decode_HC_refused : decode .hcmd 0x10000304 = .error .hcReservedModel ∧ decode .hcmd 0x20000104 = .error .hcOpcode
    ∧ decode .hcmd 0x00000000 = .error .hcOpcode ∧ decode .hcmd 0x10000504 = .error .hcReservedBits
    ∧ decode .hcmd 0x18000104 = .error .hcReservedBits ∧ decode .hcmd 0xFFFFFFFF = .error .hcOpcode := by decide

theorem test_decode_RS : decode .result 0x80000000 = .ok .resultReading
    ∧ decode .result 0xC0000105 = .ok (.resultReadError .timeout 5)
    ∧ decode .result 0xC0000205 = .ok (.resultReadError .checksumMismatch 5)
    ∧ decode .result 0xC0000305 = .ok (.resultReadError .implausibleValue 5)
    ∧ decode .result 0xC00003FF = .ok (.resultReadError .implausibleValue 255) := by decide
theorem test_decode_RS_refused : decode .result 0x00000000 = .error .rsNotValid
    ∧ decode .result 0x80000101 = .error .rsReservedBits ∧ decode .result 0xE0000105 = .error .rsReservedBits := by decide

theorem test_decode_SET_DIR : decode .ccmd 0x10400001 = .ok (.setDir 4 .output) ∧ decode .ccmd 0x11100000 = .ok (.setDir 17 .input)
    ∧ decode .ccmd 0x10400003 = .error .cwReservedBits := by decide
theorem test_decode_WRITE : decode .ccmd 0x20400001 = .ok (.write 4 .high) ∧ decode .ccmd 0x2FF00000 = .ok (.write 255 .low)
    ∧ decode .ccmd 0x20480001 = .error .cwReservedBits := by decide
theorem test_decode_WAIT_EDGE : decode .ccmd 0x3040012C = .ok (.waitEdge 4 300)
    ∧ decode .ccmd 0x304FFFFF = .ok (.waitEdge 4 1048575) ∧ decode .ccmd 0x30400001 = .ok (.waitEdge 4 1) := by decide
theorem test_decode_SLEEP_US : decode .ccmd 0x400003E8 = .ok (.sleepUs 1000) ∧ decode .ccmd 0x40000000 = .ok (.sleepUs 0)
    ∧ decode .ccmd 0x40100014 = .error .cwReservedBits := by decide
theorem test_decode_SLEEP_MS : decode .ccmd 0x50000012 = .ok (.sleepMs 18) ∧ decode .ccmd 0x500007D0 = .ok (.sleepMs 2000)
    ∧ decode .ccmd 0x58000012 = .error .cwReservedBits := by decide
theorem test_decode_CW_refused : decode .ccmd 0x00000000 = .error .cwOpcode ∧ decode .ccmd 0x60000000 = .error .cwOpcode
    ∧ decode .ccmd 0xF0000001 = .error .cwOpcode := by decide

theorem test_decode_RW : decode .crsp 0x00000000 = .ok .ack ∧ decode .crsp 0x80000000 = .ok .timeout
    ∧ decode .crsp 0x40000032 = .ok (.edge .low 50) ∧ decode .crsp 0x4010001B = .ok (.edge .high 27)
    ∧ decode .crsp 0x40000000 = .ok (.edge .low 0) ∧ decode .crsp 0x401FFFFF = .ok (.edge .high 1048575) := by decide
theorem test_decode_RW_refused : decode .crsp 0xC0000000 = .error .rwReservedKind
    ∧ decode .crsp 0x40200032 = .error .rwReservedBits ∧ decode .crsp 0x80000001 = .error .rwReservedBits
    ∧ decode .crsp 0x00100000 = .error .rwReservedBits := by decide

theorem test_decode_USTATE_low : decode .ustate 0 = .ok .idle ∧ decode .ustate 1 = .ok .attStart ∧ decode .ustate 2 = .ok .hsDirOut
    ∧ decode .ustate 3 = .ok .hsDriveHigh ∧ decode .ustate 4 = .ok .hsIdleHold ∧ decode .ustate 5 = .ok .hsDriveLow
    ∧ decode .ustate 6 = .ok .hsLowHold ∧ decode .ustate 7 = .ok .hsRelease ∧ decode .ustate 8 = .ok .hsSettle := by decide
theorem test_decode_USTATE_high : decode .ustate 9 = .ok .capLead ∧ decode .ustate 10 = .ok .capAckLow
    ∧ decode .ustate 11 = .ok .capAckHigh ∧ decode .ustate 12 = .ok .capBitLow ∧ decode .ustate 13 = .ok .capBitHigh
    ∧ decode .ustate 14 = .ok .check ∧ decode .ustate 15 = .ok .convert ∧ decode .ustate 16 = .ok .gate
    ∧ decode .ustate 17 = .ok .attDone ∧ decode .ustate 18 = .ok .retryDelay := by decide
theorem test_decode_USTATE_refused : decode .ustate 19 = .error .ustateCode ∧ decode .ustate 31 = .error .ustateCode
    ∧ decode .ustate 32 = .error .ustateCode := by decide

theorem test_decode_table_word : decodeTableWord 32 0x10000104 = some (.read .dht22 4)
    ∧ decodeTableWord 32 0x20400001 = some (.write 4 .high) ∧ decodeTableWord 32 0x40100046 = some (.edge .high 70)
    ∧ decodeTableWord 32 0xC0000105 = some (.resultReadError .timeout 5) ∧ decodeTableWord 5 14 = some .check
    ∧ decodeTableWord 8 18 = some .retryDelay ∧ decodeTableWord 5 19 = none ∧ decodeTableWord 32 0xFFFFFFFF = none := by decide

/-- An instance with `PIN_W = 4` and `DUR_W = 11` (R8): the largest operands and the first beyond them. -/
theorem test_decode_instance : decodeFor narrow .hcmd 0x1000010F = .ok (.read .dht22 15)
    ∧ decodeFor narrow .hcmd 0x10000110 = .error .widthExceeded ∧ decodeFor narrow .crsp 0x401007FF = .ok (.edge .high 2047)
    ∧ decodeFor narrow .crsp 0x40100800 = .error .widthExceeded ∧ decodeFor narrow .crsp 0x80000000 = .ok .timeout
    ∧ decodeFor narrow .crsp 0xC0000000 = .error .rwReservedKind := by decide
theorem test_step_instance : refusalOf (step { State.resetWith narrow with hcmd := [0x10000110] }) = some .hostWordNotACommand
    ∧ ((nextOf (step { State.resetWith narrow with hcmd := [0x1000010F] })).map fun t => t.pin) = some 15
    ∧ faultOf (step { answered .capLead 0x40100800 with cfg := narrow }) = some .malformedResponse
    ∧ ((nextOf (step { answered .capLead 0x401007FF with cfg := narrow })).map fun t => t.trace) = some [⟨.high, 2047⟩] := by decide

/-- A word laid for the next step runs there: the command goes out, the response is consumed, the result is published (log 14). -/
theorem test_fetch_word : ((nextOf (step (State.reset.withFetchWord 32 0x3040012C))).map fun t => t.ccmd) = some [0x3040012C]
    ∧ ((nextOf (step (State.reset.withFetchWord 32 0x40100046))).map fun t => t.trace) = some [⟨.high, 70⟩]
    ∧ ((nextOf (step (State.reset.withFetchWord 32 0xC0000203))).map fun t => t.rs) = some 0xC0000203
    ∧ ((nextOf (step (State.reset.withFetchWord 5 18))).map fun t => t.ccmd) = some [0x500007D0] := by decide

/-! ## Reset (R42, R215) -/

theorem test_reset : State.reset.state = .idle ∧ State.reset.pend = false ∧ State.reset.rs = 0 ∧ State.reset.attempts = 0
    ∧ State.reset.cfg.wf = true := by decide

/-! ## The host's side (R100 to R103, 95_test_vectors.md 2.1, 2.2) -/

/-- The example of R100. -/
theorem test_READ : ((nextOf (exec (.read .dht22 4) State.reset)).map fun t => (t.model, t.pin, t.attempts, t.rs, t.state))
    = some (.dht22, 4, 0, 0, .attStart) := by decide
theorem test_IDLE : ((nextOf (step { State.reset with hcmd := [0x10000211] })).map fun t => (t.model, t.pin, t.hcmd, t.state))
    = some (.am2302, 17, [], .attStart) := by decide
theorem test_IDLE_refuses : refusalOf (step { State.reset with hcmd := [0x10000304] }) = some .hostWordNotACommand := by decide
/-- The example of R102. -/
theorem test_RESULT_READING : ((nextOf (exec .resultReading { inState .attDone with
      humF := .binary32 0x42C80000, tempF := .binary32 0x41C80000 })).map fun t => (t.rs, t.resHum, t.resTemp, t.state))
    = some (0x80000000, some (.binary32 0x42C80000), some (.binary32 0x41C80000), .idle) := by decide
/-- The example of R103. -/
theorem test_RESULT_READ_ERROR : ((nextOf (exec (.resultReadError .timeout 5)
      { inState .attDone with attRes := .timeout, attempts := 5, resHum := some (.binary32 1) })).map
      fun t => (t.rs, t.resHum, t.resTemp, t.state)) = some (0xC0000105, none, none, .idle) := by decide

/-! ## The handshake (R110 to R124, 95_test_vectors.md 2.3: pin 4) -/

theorem test_ATT_START : ((nextOf (exec .attStart { inState .attStart with attempts := 0, sr := 7, bitcnt := 9 })).map
    fun t => (t.attempts, t.sr, t.bitcnt, t.state)) = some (1, 0, 0, .hsDirOut) := by decide
theorem test_HS_DIR_OUT : ((nextOf (exec .hsDirOut (inState .hsDirOut))).map fun t => (t.ccmd, t.pend)) = some ([0x10400001], true)
    ∧ ((nextOf (exec .hsDirOut (answered .hsDirOut 0))).map fun t => (t.state, t.pend, (t.line 4).dir))
      = some (.hsDriveHigh, false, some .output) := by decide
theorem test_HS_DRIVE_HIGH : ((nextOf (exec .hsDriveHigh (inState .hsDriveHigh))).map fun t => t.ccmd) = some [0x20400001]
    ∧ ((nextOf (exec .hsDriveHigh (onLine (answered .hsDriveHigh 0) .output .low))).map fun t => (t.state, (t.line 4).out))
      = some (.hsIdleHold, some .high) := by decide
theorem test_HS_IDLE_HOLD : ((nextOf (exec .hsIdleHold (inState .hsIdleHold))).map fun t => t.ccmd) = some [0x400003E8]
    ∧ ((nextOf (exec .hsIdleHold (answered .hsIdleHold 0))).map fun t => t.state) = some .hsDriveLow := by decide
theorem test_HS_DRIVE_LOW : ((nextOf (exec .hsDriveLow (inState .hsDriveLow))).map fun t => t.ccmd) = some [0x20400000]
    ∧ ((nextOf (exec .hsDriveLow (onLine (answered .hsDriveLow 0) .output .high))).map fun t => (t.state, (t.line 4).out))
      = some (.hsLowHold, some .low) := by decide
theorem test_HS_LOW_HOLD : ((nextOf (exec .hsLowHold (inState .hsLowHold))).map fun t => t.ccmd) = some [0x50000012]
    ∧ ((nextOf (exec .hsLowHold (answered .hsLowHold 0))).map fun t => t.state) = some .hsRelease := by decide
theorem test_HS_RELEASE : ((nextOf (exec .hsRelease (inState .hsRelease))).map fun t => t.ccmd) = some [0x10400000]
    ∧ ((nextOf (exec .hsRelease (onLine (answered .hsRelease 0) .output .low))).map fun t => (t.state, (t.line 4).dir))
      = some (.hsSettle, some .input) := by decide
theorem test_HS_SETTLE : ((nextOf (exec .hsSettle (inState .hsSettle))).map fun t => t.ccmd) = some [0x40000014]
    ∧ ((nextOf (exec .hsSettle (answered .hsSettle 0))).map fun t => t.state) = some .capLead := by decide
theorem test_SET_DIR : ((nextOf (exec (.setDir 4 .output) (inState .hsDirOut))).map fun t => t.ccmd) = some [0x10400001]
    ∧ refusalOf (exec (.setDir 5 .output) (inState .hsDirOut)) = some .commandNotIssued := by decide
theorem test_WRITE : ((nextOf (exec (.write 4 .low) (inState .hsDriveLow))).map fun t => t.ccmd) = some [0x20400000]
    ∧ refusalOf (exec (.write 4 .low) (onLine (inState .hsDriveLow) .input .low)) = some .writeInInputMode := by decide
theorem test_SLEEP_US : ((nextOf (exec (.sleepUs 20) (inState .hsSettle))).map fun t => t.ccmd) = some [0x40000014]
    ∧ refusalOf (exec (.sleepUs 21) (inState .hsSettle)) = some .commandNotIssued := by decide
theorem test_SLEEP_MS : ((nextOf (exec (.sleepMs 18) (inState .hsLowHold))).map fun t => t.ccmd) = some [0x50000012]
    ∧ ((nextOf (exec (.sleepMs 2000) (inState .retryDelay))).map fun t => t.ccmd) = some [0x500007D0] := by decide
theorem test_ACK : ((nextOf (exec .ack { inState .hsSettle with pend := true })).map fun t => (t.state, t.pend)) = some (.capLead, false)
    ∧ faultOf (exec .ack { inState .capLead with pend := true }) = some .unexpectedResponse := by decide

/-! ## The capture (R130 to R140, 95_test_vectors.md 2.4 to 2.7) -/

theorem test_WAIT_EDGE : ((nextOf (exec (.waitEdge 4 300) (inState .capBitLow))).map fun t => (t.ccmd, t.pend))
    = some ([0x3040012C], true) := by decide
theorem test_EDGE : ((nextOf (exec (.edge .high 80) { inState .capAckLow with pend := true })).map
      fun t => (t.state, t.attRes, t.trace)) = some (.attDone, .timeout, [⟨.high, 80⟩])
    ∧ faultOf (exec (.edge .high 80) { inState .hsSettle with pend := true }) = some .unexpectedResponse := by decide
theorem test_TIMEOUT : ((nextOf (exec .timeout { inState .capBitHigh with pend := true, bitcnt := 39, sr := 0x01F4007D72 })).map
    fun t => (t.state, t.attRes, t.bitcnt, t.sr)) = some (.attDone, .timeout, 39, 0x01F4007D72) := by decide
theorem test_CAP_LEAD : ((nextOf (exec .capLead (answered .capLead 0x4010000F))).map fun t => t.state) = some .capAckLow
    ∧ ((nextOf (exec .capLead (answered .capLead 0x4000003E))).map fun t => t.state) = some .capAckLow := by decide
theorem test_CAP_ACK_LOW : ((nextOf (exec .capAckLow (answered .capAckLow 0x40000050))).map fun t => t.state) = some .capAckHigh
    ∧ ((nextOf (exec .capAckLow (answered .capAckLow 0x40100050))).map fun t => (t.state, t.attRes)) = some (.attDone, .timeout) := by
  decide
theorem test_CAP_ACK_HIGH : ((nextOf (exec .capAckHigh (answered .capAckHigh 0x40100050))).map fun t => t.state) = some .capBitLow
    ∧ ((nextOf (exec .capAckHigh (answered .capAckHigh 0x40000050))).map fun t => (t.state, t.attRes)) = some (.attDone, .timeout) := by
  decide
theorem test_CAP_BIT_LOW : ((nextOf (exec .capBitLow (answered .capBitLow 0x40000032))).map fun t => t.state) = some .capBitHigh
    ∧ ((nextOf (exec .capBitLow (answered .capBitLow 0x80000000))).map fun t => (t.state, t.attRes)) = some (.attDone, .timeout) := by
  decide
/-- The example of R138, and the 40th bit of the frame 03 E8 00 FA E5. -/
theorem test_CAP_BIT_HIGH : ((nextOf (exec .capBitHigh { answered .capBitHigh 0x40100046 with sr := 3, bitcnt := 8 })).map
      fun t => (t.sr, t.bitcnt, t.state)) = some (7, 9, .capBitLow)
    ∧ ((nextOf (exec .capBitHigh { answered .capBitHigh 0x40100046 with sr := 0x01F4007D72, bitcnt := 39 })).map
      fun t => (t.sr, t.bitcnt, t.state)) = some (0x03E800FAE5, 40, .check) := by decide
/-- 95_test_vectors.md 2.5: below, at and above the threshold, under both tie rules. -/
theorem test_classify : (classify Config.default .dht22 49, classify Config.default .dht22 50, classify Config.default .dht22 51)
      = (0, 1, 1)
    ∧ (classify { Config.default with tieIsOne := false } .dht22 50, classify Config.default .dht11 1048575) = (0, 1) := by decide
/-- 95_test_vectors.md 2.6. -/
theorem test_accumulate : accumulate 3 0 = 6 ∧ accumulate 0x7FFFFFFFFF 1 = 0xFFFFFFFFFF ∧ accumulate 0x8000000000 0 = 0 := by decide

/-! ## Checksum, conversion, gate (95_test_vectors.md section 3) -/

theorem test_checksum : (checksum 0x03 0xE8 0x00 0xFA, checksum 0xFF 0xFF 0xFF 0xFF, checksum 0x80 0x80 0 0, checksum 0x02 0x58 0x80 0x65)
    = (0xE5, 0xFC, 0, 0x3F) := by decide
theorem test_CHECK : ((nextOf (exec .check (withFrame .check .dht22 0x03E800FAE5))).map fun t => t.state) = some .convert
    ∧ ((nextOf (exec .check (withFrame .check .dht22 0x03E800FAE4))).map fun t => (t.state, t.attRes))
      = some (.attDone, .checksumMismatch) := by decide
theorem test_mag32 : (mag32 0, mag32 1, mag32 101, mag32 255, mag32 1001) = (0, 0x3DCCCCCD, 0x4121999A, 0x41CC0000, 0x42C83333)
    ∧ (mag32 9999, mag32 32767, mag32 65535) = (0x4479F99A, 0x454CCB33, 0x45CCCC00) := by decide
theorem test_mag64 : (mag64 0, mag64 1, mag64 101, mag64 250, mag64 1000)
      = (0, 0x3FB999999999999A, 0x4024333333333333, 0x4039000000000000, 0x4059000000000000)
    ∧ (mag64 401, mag64 65535) = (0x40440CCCCCCCCCCD, 0x40B9998000000000) := by decide
theorem test_tofloat : toFloat .binary32 1 0 = .binary32 0x80000000 ∧ toFloat .binary32 1 101 = .binary32 0xC121999A
    ∧ toFloat .binary64 1 101 = .binary64 0xC024333333333333 := by decide
/-- The -10.1 degree frame of 95_test_vectors.md E5, and the DHT11 frame 37 05 18 83 D7 with both policies on. -/
theorem test_CONVERT : ((nextOf (exec .convert (withFrame .convert .dht22 0x025880653F))).map
      fun t => (t.h10, t.tNeg, t.tMag, t.humF, t.tempF)) = some (600, 1, 101, .binary32 0x42700000, .binary32 0xC121999A)
    ∧ ((nextOf (exec .convert { withFrame .convert .dht11 0x37051883D7 with
          cfg := { Config.default with dht11HFrac := true, dht11TSign := true } })).map
      fun t => (t.h10, t.tNeg, t.tMag, t.humF, t.tempF)) = some (555, 1, 240, .binary32 0x425E0000, .binary32 0xC1C00000) := by
  decide
/-- On the bounds and just outside (95_test_vectors.md 3.3). -/
theorem test_GATE : ((nextOf (exec .gate { inState .gate with humF := .binary32 0x42C80000, tempF := .binary32 0xC2200000 })).map
      fun t => (t.attRes, t.state)) = some (.success, .attDone)
    ∧ ((nextOf (exec .gate { inState .gate with humF := .binary32 0, tempF := .binary32 0xC2206666 })).map
      fun t => (t.attRes, t.state)) = some (.implausibleValue, .attDone) := by decide
theorem test_gate_humidity : humInRange (.binary32 0x42C80000) = true ∧ humInRange (.binary32 0x42C83333) = false
    ∧ humInRange (.binary64 0x4059066666666666) = false ∧ tempInRange (.binary32 0x80000000) = true
    ∧ tempInRange (.binary64 0x4054066666666666) = false := by decide
/-- Whole frames of 95_test_vectors.md 3.3 through the pure function. -/
theorem test_frame_result : (frameResult Config.default .dht22 0x03E800FAE4, frameResult Config.default .dht22 0x0000800080,
      frameResult Config.default .dht11 0x64005000B4, frameResult Config.default .dht11 0x65005000B5)
    = (.checksumMismatch, .success, .success, .implausibleValue) := by decide

/-! ## The retry (R175 to R179, 95_test_vectors.md section 4) -/

/-- The example of R175. -/
theorem test_ATT_DONE : ((nextOf (exec .attDone { inState .attDone with attempts := 2, attRes := .checksumMismatch })).map
      fun t => (t.lastKind, t.state, t.rs)) = some (.checksumMismatch, .retryDelay, 0)
    ∧ ((nextOf (exec .attDone { inState .attDone with attempts := 5, attRes := .implausibleValue })).map
      fun t => (t.state, t.rs)) = some (.idle, 0xC0000305) := by decide
theorem test_RETRY_DELAY : ((nextOf (exec .retryDelay (inState .retryDelay))).map fun t => t.ccmd) = some [0x500007D0]
    ∧ ((nextOf (exec .retryDelay (answered .retryDelay 0))).map fun t => t.state) = some .attStart := by decide
theorem test_orchestrate : orchestrate 3 1 [.checksumMismatch, .implausibleValue, .timeout] = some (.readError .timeout 3)
    ∧ orchestrate 5 1 [.timeout, .success] = some (.reading 2)
    ∧ orchestrate 1 1 [.checksumMismatch, .success] = some (.readError .checksumMismatch 1) := by decide

/-! ## Witnesses: for every statement of Certificates/Slice0/Obligations.lean with hypotheses, a state and operands that meet all of them together -/

/-- Whether a step goes on. -/
def goesOn (s : State) : Bool := (nextOf (step s)).isSome

/-- Answers that carry the all-zero frame. -/
def zeroFrame : List Response :=
  [.edge .high 15, .edge .low 80, .edge .high 80] ++ (List.replicate 40 [Response.edge .low 50, .edge .high 27]).flatten

theorem witness_DecodedWordIsItsEncoding : decode .hcmd 0x100002FF = .ok (.read .am2302 255)
    ∧ decode .result 0xC00003FF = .ok (.resultReadError .implausibleValue 255) ∧ decode .ccmd 0x304FFFFF = .ok (.waitEdge 4 1048575)
    ∧ decode .crsp 0x401FFFFF = .ok (.edge .high 1048575) ∧ decode .ustate 18 = .ok .retryDelay := by decide

theorem witness_ReadAccepted : State.reset.state = .idle ∧ (255 : Pin).toNat < 2 ^ State.reset.cfg.pinW
    ∧ (15 : Pin).toNat < 2 ^ (State.resetWith narrow).cfg.pinW
    ∧ ({ State.reset with hcmd := [0x100002FF] } : State).hcmd
      = (0x10000000#32 ||| ((modelCode .am2302).setWidth 32 <<< 8) ||| (255 : Pin).setWidth 32) :: [] := by decide

theorem witness_HostWordsNotTaken : (0x20000104#32).toNat / 2 ^ 28 ≠ 1 ∧ (0x10000504#32).toNat / 2 ^ 10 % 2 ^ 18 ≠ 0
    ∧ (0x18000104#32).toNat / 2 ^ 10 % 2 ^ 18 ≠ 0 ∧ (0x10000304#32).toNat / 2 ^ 8 % 4 = 3
    ∧ ({ State.reset with hcmd := [0x10000304] } : State).hcmd = 0x10000304 :: []
    ∧ (inState .attStart).state ≠ .idle ∧ goesOn (inState .attStart) = true := by decide

theorem witness_StopsAreNamed :
    -- a host word that spells no command; a READ while busy
    (({ State.reset with hcmd := [0x18000104] } : State).hcmd = 0x18000104 :: [] ∧ (0x18000104#32).toNat / 2 ^ 10 % 2 ^ 18 ≠ 0
      ∧ (inState .retryDelay).state ≠ .idle
      ∧ (State.resetWith narrow).state = .idle ∧ 2 ^ (State.resetWith narrow).cfg.pinW ≤ (16 : Pin).toNat
      ∧ 2 ^ (State.resetWith narrow).cfg.pinW ≤ (0x10000110#32).toNat % 2 ^ 8)
    -- commands out of turn: outstanding, another pin, another state
    ∧ ((answered .hsDirOut 0).pend = true ∧ (5 : Pin) ≠ (inState .hsDirOut).pin
      ∧ ¬(((inState .hsRelease).state = .hsDirOut ∧ Direction.output = .output)
        ∨ ((inState .hsRelease).state = .hsRelease ∧ Direction.output = .input))
      ∧ ¬(((inState .hsDriveLow).state = .hsDriveHigh ∧ Level.high = .high) ∨ ((inState .hsDriveLow).state = .hsDriveLow ∧ Level.high = .low)))
    -- a WRITE in Input mode
    ∧ ((onLine (inState .hsDriveHigh) .input .low).pend = false
      ∧ ((onLine (inState .hsDriveHigh) .input .low).line (onLine (inState .hsDriveHigh) .input .low).pin).dir = some .input
      ∧ (onLine (inState .hsDriveHigh) .input .low).state = .hsDriveHigh)
    -- WAIT_EDGE and the sleeps out of turn
    ∧ ((301 : Dur) ≠ (inState .capLead).cfg.edgeTimeoutUs ∧ isCaptureState (inState .check).state = false
      ∧ ¬(((inState .hsSettle).state = .hsIdleHold ∧ (21 : Dur) = (inState .hsSettle).cfg.tIdleHoldUs)
        ∨ ((inState .hsSettle).state = .hsSettle ∧ (21 : Dur) = (inState .hsSettle).cfg.tSettleUs))
      ∧ ¬(((inState .retryDelay).state = .hsLowHold ∧ (18 : Dur) = ((inState .retryDelay).cfg.record (inState .retryDelay).model).startHoldMs)
        ∨ ((inState .retryDelay).state = .retryDelay ∧ (18 : Dur) = (inState .retryDelay).cfg.retryDelayMs)))
    -- results not published, responses with no command outstanding, responses not expected
    ∧ (¬((inState .gate).state = .attDone ∧ (inState .gate).attRes = .success)
      ∧ (inState .capLead).pend = false
      ∧ (answered .capLead 0).pend = true
      ∧ (answered .capLead 0).state ∉
        [SeqState.hsDirOut, .hsDriveHigh, .hsIdleHold, .hsDriveLow, .hsLowHold, .hsRelease, .hsSettle, .retryDelay]
      ∧ (answered .hsSettle 0).pend = true ∧ isCaptureState (answered .hsSettle 0).state = false
      ∧ (1048575 : Dur).toNat < 2 ^ (answered .hsSettle 0).cfg.durW ∧ 2 ^ narrow.durW ≤ (2048 : Dur).toNat)
    -- malformed responses on offer, and responses of a kind not expected
    ∧ (isCommandState (answered .capLead 0xC0000000).state = true ∧ (answered .capLead 0xC0000000).pend = true
      ∧ (answered .capLead 0xC0000000).crsp = 0xC0000000 :: [] ∧ (0xC0000000#32).toNat / 2 ^ 30 = 3
      ∧ (0x40200000#32).toNat / 2 ^ 21 % 2 ^ 9 ≠ 0
      ∧ ((0x80000001#32).toNat / 2 ^ 30 ≠ 1 ∧ (0x80000001#32).toNat % 2 ^ 21 ≠ 0)
      ∧ ((0x40100800#32).toNat / 2 ^ 30 = 1 ∧ 2 ^ narrow.durW ≤ (0x40100800#32).toNat % 2 ^ 20)
      ∧ (isCaptureState (answered .capLead 0).state = true ∧ (answered .capLead 0).crsp = 0x00000000 :: [])
      ∧ (isCommandState (answered .retryDelay 0x401FFFFF).state = true ∧ isCaptureState (answered .retryDelay 0x401FFFFF).state = false
        ∧ (answered .retryDelay 0x401FFFFF).crsp
          = (0x40000000#32 ||| ((levelBit .high).setWidth 32 <<< 20) ||| (1048575 : Dur).setWidth 32) :: [])) := by
  decide

theorem witness_ReadingPublished : (inState .attDone).state = .attDone ∧ (inState .attDone).attRes = .success := by decide

theorem witness_ReadErrorPublished :
    let s : State := { inState .attDone with attRes := .timeout, attempts := 5 }
    s.state = .attDone ∧ s.attRes ≠ .success ∧ s.attempts = s.cfg.attemptCap ∧ s.lastKind = s.attRes := by decide

theorem witness_command_states : (inState .hsIdleHold).pend = false ∧ (answered .hsIdleHold 0).pend = true
    ∧ (answered .hsIdleHold 0).crsp = 0x00000000 :: [] ∧ Lines.wf (onLine (answered .hsDriveHigh 0) .output .low).lines = true
    ∧ (onLine (answered .hsDriveHigh 0) .output .low).pend = true
    ∧ ((onLine (answered .hsDriveHigh 0) .output .low).line (onLine (answered .hsDriveHigh 0) .output .low).pin).dir = some .output
    ∧ (onLine (answered .hsDriveHigh 0) .output .low).crsp = 0x00000000 :: [] := by decide

theorem witness_CommandRowsAreIssued :
    ((inState .hsRelease).pend = false ∧ (inState .hsRelease).state = .hsRelease)
    ∧ ((inState .hsDriveHigh).pend = false ∧ ((inState .hsDriveHigh).line (inState .hsDriveHigh).pin).dir ≠ some .input)
    ∧ ((inState .capBitHigh).pend = false ∧ isCaptureState (inState .capBitHigh).state = true)
    ∧ ((inState .hsSettle).state = .hsSettle ∧ (20 : Dur) = (inState .hsSettle).cfg.tSettleUs)
    ∧ ((inState .hsLowHold).state = .hsLowHold ∧ (18 : Dur) = ((inState .hsLowHold).cfg.record (inState .hsLowHold).model).startHoldMs)
    ∧ ((inState .retryDelay).state = .retryDelay ∧ (2000 : Dur) = (inState .retryDelay).cfg.retryDelayMs) := by decide

theorem witness_AckAdvances : (answered .retryDelay 0).pend = true
    ∧ ((answered .retryDelay 0).state, SeqState.attStart) ∈
      [(SeqState.hsDirOut, SeqState.hsDriveHigh), (.hsDriveHigh, .hsIdleHold), (.hsIdleHold, .hsDriveLow),
        (.hsDriveLow, .hsLowHold), (.hsLowHold, .hsRelease), (.hsRelease, .hsSettle), (.hsSettle, .capLead),
        (.retryDelay, .attStart)]
    ∧ (answered .capLead 0).state ∉
        [SeqState.hsDirOut, .hsDriveHigh, .hsIdleHold, .hsDriveLow, .hsLowHold, .hsRelease, .hsSettle, .retryDelay] := by decide

theorem witness_HandshakeNeverFails : (answered .hsSettle 0).state ∈
      [SeqState.hsDirOut, .hsDriveHigh, .hsIdleHold, .hsDriveLow, .hsLowHold, .hsRelease, .hsSettle]
    ∧ goesOn (answered .hsSettle 0) = true ∧ goesOn { inState .hsDirOut with pend := true } = true
    ∧ ({ inState .hsDirOut with pend := true } : State).crsp = [] := by decide

theorem witness_HandshakeStream :
    let s : State := { inState .attStart with attempts := 0, crsp := List.replicate 7 0 }
    s.cfg.wf = true ∧ s.state = .attStart ∧ s.pend = false ∧ s.crsp = List.replicate 7 0x00000000 ++ [] := by decide

theorem witness_HandshakesCountAttempts : countInv (inState .hsDirOut) = true ∧ pendInv (inState .hsDirOut) = true
    ∧ (inState .hsDirOut).state ≠ .idle ∧ goesOn (inState .hsDirOut) = true := by decide

theorem witness_CaptureStatesIssueWaitEdge : (inState .capLead).pend = false ∧ isCaptureState (inState .capLead).state = true
    ∧ ((nextOf (step (inState .capLead))).map fun t => t.ccmd) = some ((inState .capLead).ccmd ++ [encode (.waitEdge 4 300)]) := by
  decide

theorem witness_edges : (answered .capAckLow 0x40000050).pend = true ∧ (1048575 : Dur).toNat < 2 ^ (answered .capAckHigh 0x401FFFFF).cfg.durW
    ∧ (answered .capAckLow 0x40000050).crsp
      = (0x40000000#32 ||| ((levelBit .low).setWidth 32 <<< 20) ||| (80 : Dur).setWidth 32) :: []
    ∧ (answered .capAckHigh 0x401FFFFF).crsp
      = (0x40000000#32 ||| ((levelBit .high).setWidth 32 <<< 20) ||| (1048575 : Dur).setWidth 32) :: []
    ∧ (answered .capLead 0x80000000).crsp = 0x80000000 :: []
    ∧ (answered .capBitHigh 0x40100032).crsp = (0x40100000#32 ||| (50 : Dur).setWidth 32) :: []
    ∧ (answered .capBitHigh 0x40000032).crsp = (0x40000000#32 ||| (50 : Dur).setWidth 32) :: []
    ∧ isCaptureState (answered .capLead 0).state = true ∧ isCaptureState (answered .hsSettle 0).state = false := by decide

/-- A capture that times out at once and a complete one. -/
theorem witness_capture : capture Config.default .dht22 [.timeout] = some .timeout ∧ captureLength [.timeout] = 1
    ∧ (∀ r ∈ [Response.timeout], r ≠ .ack ∧ (durationOf r).toNat < 2 ^ Config.default.durW)
    ∧ capture Config.default .dht22 zeroFrame = some (.frame 0)
    ∧ (∀ r ∈ zeroFrame, r ≠ .ack ∧ (durationOf r).toNat < 2 ^ Config.default.durW) := by decide

theorem witness_SequencerComputesCapture :
    let s : State := { inState .capLead with crsp := [0x80000000] }
    s.cfg.wf = true ∧ s.state = .capLead ∧ s.pend = false ∧ s.sr = 0 ∧ s.bitcnt = 0
      ∧ s.crsp = [Response.timeout].map responseWord ++ [] ∧ capture s.cfg s.model [.timeout] = some .timeout := by decide

theorem witness_AttemptComputesItsResult :
    let s : State := { inState .attStart with attempts := 0, crsp := [0, 0, 0, 0, 0, 0, 0, 0x80000000] }
    s.cfg.wf = true ∧ s.state = .attStart ∧ s.pend = false
      ∧ s.crsp = List.replicate 7 0x00000000 ++ ([Response.timeout].map responseWord ++ []) := by decide

theorem witness_ChecksumDetectsOneByte :
    let s := withFrame .check .dht22 0x03E800FAE5
    let t := withFrame .check .dht22 0x03E800FAE4
    let u := withFrame .check .dht22 0x02E800FAE5
    s.sr.toNat / 2 ^ 8 = t.sr.toNat / 2 ^ 8 ∧ s.sr ≠ t.sr
      ∧ ((nextOf (exec .check s)).map fun x => x.state) = some .convert
      ∧ s.sr.toNat / 2 ^ (8 * 4 + 8) = u.sr.toNat / 2 ^ (8 * 4 + 8) ∧ s.sr.toNat % 2 ^ (8 * 4) = u.sr.toNat % 2 ^ (8 * 4)
      ∧ s.sr ≠ u.sr := by decide

theorem witness_Convert : ((inState .convert).cfg.record .dht22).convSel = .tenths
    ∧ ((inState .convert).cfg.record .dht11).convSel = .whole := by decide

theorem witness_GateIsIntegerGate :
    let s : State := { inState .gate with
      h10 := 1000, tNeg := 1, tMag := 400, humF := .binary32 0x42C80000, tempF := .binary32 0xC2200000 }
    s.humF = toFloat s.cfg.floatFmt 0 s.h10.toNat ∧ s.tempF = toFloat s.cfg.floatFmt s.tNeg s.tMag.toNat := by decide

theorem witness_FrameResultComputed : (withFrame .check .dht22 0x03E800FAE5).cfg.wf = true
    ∧ (withFrame .check .dht22 0x03E800FAE5).state = .check ∧ (withFrame .check .dht22 0x03E800FAE5).pend = false := by decide

theorem witness_AttemptFailChangesNothingElse :
    pendInv (answered .capLead 0x80000000) = true ∧ (answered .capLead 0x80000000).state ≠ .attDone
    ∧ ((nextOf (step (answered .capLead 0x80000000))).map fun t => (t.state, t.attRes)) = some (.attDone, .timeout)
    ∧ ((nextOf (step (withFrame .check .dht22 0x03E800FAE4))).map fun t => (t.state, t.attRes)) = some (.attDone, .checksumMismatch)
    ∧ ((nextOf (step { inState .gate with humF := .binary32 0x42C83333 })).map fun t => (t.state, t.attRes))
      = some (.attDone, .implausibleValue) := by decide

theorem witness_AttemptDoneDecides : (inState .attDone).attRes = .success
    ∧ ({ inState .attDone with attRes := .timeout, attempts := 5 } : State).attempts = (inState .attDone).cfg.attemptCap
    ∧ ({ inState .attDone with attRes := .timeout } : State).attRes ≠ .success
    ∧ ({ inState .attDone with attRes := .timeout } : State).attempts ≠ (inState .attDone).cfg.attemptCap := by decide

theorem witness_StepRunsTheDecodedOperation :
    (inState .gate).cfg.wf = true ∧ decode .ustate (0#27 ++ stateCode (inState .gate).state) = .ok .gate
    ∧ decodeFor State.reset.cfg .hcmd 0x10000104 = .ok (.read .dht22 4)
    ∧ isCommandState (answered .capLead 0x4010000F).state = true
    ∧ decodeFor (answered .capLead 0x4010000F).cfg .crsp 0x4010000F = .ok (.edge .high 15)
    ∧ commandOf (inState .hsDriveLow) = some (.write 4 .low)
    ∧ ((inState .hsDriveLow).line (inState .hsDriveLow).pin).dir ≠ some .input
    -- the other commands are issued with the pin in Input mode too
    ∧ (commandOf (onLine (inState .capLead) .input .low) = some (.waitEdge 4 300)
      ∧ ∀ l : Level, Instr.waitEdge 4 300 = .write 4 l → False) := by
  refine ⟨by decide, by decide, by decide, by decide, by decide, by decide, by decide, by decide, fun l h => ?_⟩
  cases h

theorem witness_IllFormedConfigurationRefused : ({ Config.default with attemptCap := 0 } : Config).attemptCap = 0
    ∧ ({ Config.default with dht11 := ⟨17, 50, .whole⟩ } : Config).dht11.startHoldMs.toNat < 18
    ∧ ({ Config.default with edgeTimeoutUs := 50 } : Config).edgeTimeoutUs.toNat ≤ (Config.default.record .dht22).bitThresholdUs.toNat := by
  decide

theorem witness_responses : (answered .capLead 0xC0000000).cfg.wf = true ∧ isCommandState (answered .capLead 0xC0000000).state = true
    ∧ (answered .capLead 0xC0000000).pend = true ∧ (answered .capLead 0xC0000000).crsp ≠ []
    ∧ collaboratorReady (answered .capLead 0xC0000000) = false ∧ collaboratorReady (answered .capLead 0) = false
    ∧ collaboratorReady (answered .capLead 0x80000000) = true ∧ collaboratorReady (answered .hsSettle 0x80000000) = false := by decide

theorem witness_WaitingChangesNothing : State.reset.cfg.wf = true ∧ State.reset.state = .idle ∧ State.reset.hcmd = []
    ∧ isCommandState ({ inState .capLead with pend := true } : State).state = true
    ∧ ({ inState .capLead with pend := true } : State).crsp = [] := by decide

theorem witness_ContractKeepsItRunning : pendInv (answered .capLead 0x80000000) = true
    ∧ collaboratorReady (answered .capLead 0x80000000) = true ∧ hostReady (answered .capLead 0x80000000) = true
    ∧ hostReady { State.reset with hcmd := [0x10000104] } = true ∧ collaboratorReady State.reset = true := by decide

theorem witness_floats : 1 ≤ 1 ∧ 1 ≤ 65535 ∧ 65535 ≤ 65535 ∧ 0 < 65535 := by decide

/-- Steps that go on, for the statements over every step with no other hypothesis (SuccessorsAsTabulated, OneCommandOutstanding, AccessSummary,
OnlyTheOwnedLineChanges, ResetValues). -/
theorem witness_steps : goesOn (inState .attStart) = true ∧ goesOn (answered .capBitHigh 0x40100046) = true
    ∧ goesOn (withFrame .convert .dht11 0) = true ∧ goesOn (inState .hsDirOut) = true
    ∧ goesOn { State.reset with hcmd := [0x10000104] } = true := by decide

theorem witness_PendInvariantKept : pendInv (inState .capLead) = true ∧ goesOn (inState .capLead) = true
    ∧ pendInv (inState .gate) = true ∧ goesOn (inState .gate) = true := by decide

/-- One bit before the end of the frame. -/
theorem witness_CountInvariantKept :
    let s : State := { answered .capBitHigh 0x40100046 with
      bitcnt := 39, sr := 0x01F4007D72, trace := List.replicate 82 ⟨.low, 50⟩ }
    countInv s = true ∧ goesOn s = true := by decide

theorem witness_ResultInvariantKept :
    let s : State := { withFrame .attDone .dht22 0x03E800FAE5 with humF := .binary32 0x42C80000, tempF := .binary32 0x41C80000 }
    resultInv s = true ∧ goesOn s = true
      ∧ resultInv { s with attRes := .timeout, attempts := 5 } = true := by decide

theorem witness_LineInvariantKept : pendInv (onLine (inState .hsDriveLow) .output .high) = true
    ∧ lineInv (onLine (inState .hsDriveLow) .output .high) = true ∧ goesOn (onLine (inState .hsDriveLow) .output .high) = true
    ∧ lineInv (onLine (answered .capLead 0x80000000) .input .low) = true := by decide

/-- Two states that differ in what is not live. -/
theorem witness_OnlyLiveStateMatters :
    liveAgree (inState .gate) { inState .gate with sr := 7, h10 := 9, lastKind := .implausibleValue, lines := [(4, ⟨some .output, none⟩)] } = true
    ∧ goesOn (inState .gate) = true := by decide

theorem witness_bounds : (inState .hsDirOut).cfg.wf = true ∧ countInv (inState .hsDirOut) = true ∧ pendInv (inState .hsDirOut) = true
    ∧ (inState .hsDirOut).state ≠ .idle ∧ collaboratorReady (inState .hsDirOut) = true ∧ goesOn (inState .hsDirOut) = true := by decide

theorem witness_InstanceDecodesItsWidths : Config.default.pinW = 8 ∧ Config.default.durW = 20
    ∧ ((15 : Pin).toNat < 2 ^ narrow.pinW ∧ ¬(16 : Pin).toNat < 2 ^ narrow.pinW)
    ∧ ((2047 : Dur).toNat < 2 ^ narrow.durW ∧ ¬(2048 : Dur).toNat < 2 ^ narrow.durW) := by decide

theorem witness_WidthsBeyondTheFormatsRefused : 8 < ({ Config.default with pinW := 9 } : Config).pinW
    ∧ 20 < ({ Config.default with durW := 21 } : Config).durW
    ∧ 2 ^ 4 ≤ (({ Config.default with durW := 4 } : Config).record .dht11).startHoldMs.toNat
    ∧ 2 ^ 9 ≤ ({ Config.default with durW := 9 } : Config).tIdleHoldUs.toNat ∧ 2 ^ 4 ≤ ({ Config.default with durW := 4 } : Config).tSettleUs.toNat
    ∧ 2 ^ 8 ≤ ({ Config.default with durW := 8 } : Config).edgeTimeoutUs.toNat
    ∧ 2 ^ 10 ≤ ({ Config.default with durW := 10 } : Config).retryDelayMs.toNat := by decide

theorem witness_WidthInvariantKept :
    let s : State := { answered .capAckLow 0x400007FF with cfg := narrow, ccmd := [0x3040012C], trace := [⟨.high, 2047⟩], lines := [(15, ⟨none, some .low⟩)] }
    widthInv s = true ∧ goesOn s = true ∧ widthInv { s with pin := 16 } = false ∧ widthInv { s with ccmd := [0x31000001] } = false := by
  decide

end Sys2Proof.Tests
end

/-! SUPPORT. The widths PIN_W and DUR_W kept by every step (spec/00_scope.md R8, R25, R51, R53). -/

namespace Sys2Proof.Machine

/-! ## Commands and their words -/

/-- A command's word decodes to it on CCMD. -/
theorem decode_ccmd_encode {i : Instr} (h : portOf i = .ccmd) : decode .ccmd (encode i) = .ok i := by
  cases i with
  | setDir p d => exact Laws.EncodeDecode.setDir p d
  | write p l => exact Laws.EncodeDecode.write p l
  | waitEdge p t => exact Laws.EncodeDecode.waitEdge p t
  | sleepUs n => exact Laws.EncodeDecode.sleepUs n
  | sleepMs n => exact Laws.EncodeDecode.sleepMs n
  | _ => cases h

/-- What a state issues is a row of CCMD (R23, R72). -/
theorem portOf_commandOf {s : State} {c : Instr} (h : commandOf s = some c) : portOf c = .ccmd := by
  obtain ⟨-, rfl⟩ | ⟨-, rfl⟩ | ⟨-, rfl⟩ | ⟨-, rfl⟩ | ⟨-, rfl⟩ | ⟨-, rfl⟩ | ⟨-, rfl⟩ | ⟨-, rfl⟩ | ⟨-, rfl⟩ :=
    commandOf_cases h <;> rfl

/-- The word of a command whose operands fit the widths is a command of that configuration. -/
theorem isCommandOf_encode {c : Config} {i : Instr} (hi : portOf i = .ccmd) (hf : i.fits c = true) :
    isCommandOf c (encode i) = true := by
  simp only [isCommandOf, Laws.decodeFor_ok.2 ⟨decode_ccmd_encode hi, hf⟩]

/-! ## The invariant under the shared operations -/

theorem widthInv_iff {s : State} : widthInv s = true ↔
    s.cfg.pinFits s.pin = true ∧ (∀ g ∈ s.trace, s.cfg.durFits g.duration = true) ∧ (∀ e ∈ s.lines, e.1 < 2 ^ s.cfg.pinW)
      ∧ ∀ w ∈ s.ccmd, isCommandOf s.cfg w = true := by
  simp only [widthInv, Bool.and_eq_true, List.all_eq_true, decide_eq_true_eq, and_assoc]

/-- A write lists no pin but those listed before and its own. -/
theorem mem_write {l : List (Nat × Line)} {p : Nat} {v : Line} {e : Nat × Line} (h : e ∈ Lines.write l p v) :
    e.1 = p ∨ e ∈ l := by
  induction l with
  | nil => grind [Lines.write]
  | cons a rest ih => grind [Lines.write]

theorem widthInv_setLine {s : State} {p : Pin} (h : widthInv s = true) (hf : s.cfg.pinFits p = true) (v : Line) :
    widthInv (s.setLine p v) = true := by
  obtain ⟨hp, htr, hl, hc⟩ := widthInv_iff.1 h
  refine widthInv_iff.2 ⟨hp, htr, fun e he => ?_, hc⟩
  obtain hpin | he := mem_write he
  · exact hpin ▸ (Laws.pinFits_iff _ p).1 hf
  · exact hl e he

theorem widthInv_issueWord {s : State} {w : Word} (h : widthInv s = true) (hw : isCommandOf s.cfg w = true) :
    widthInv (issueWord w s) = true := by
  obtain ⟨hp, htr, hl, hc⟩ := widthInv_iff.1 h
  refine widthInv_iff.2 ⟨hp, htr, hl, fun x hx => ?_⟩
  obtain hx | hx := List.mem_append.1 hx
  · exact hc x hx
  · exact List.mem_singleton.1 hx ▸ hw

theorem widthInv_appendTrace {s : State} (l : Level) {d : Dur} (h : widthInv s = true) (hd : s.cfg.durFits d = true) :
    widthInv (appendTrace l d s) = true := by
  obtain ⟨hp, htr, hl, hc⟩ := widthInv_iff.1 h
  refine widthInv_iff.2 ⟨hp, fun g hg => ?_, hl, hc⟩
  obtain hg | hg := List.mem_append.1 hg
  · exact htr g hg
  · exact List.mem_singleton.1 hg ▸ hd

theorem widthInv_startAttempt {s : State} (h : widthInv s = true) : widthInv (startAttempt s) = true := by
  obtain ⟨hp, -, hl, hc⟩ := widthInv_iff.1 h
  exact widthInv_iff.2 ⟨hp, fun _ hg => (List.not_mem_nil hg).elim, hl, hc⟩

theorem widthInv_acceptRead {s : State} (m : SensorModel) {p : Pin} (h : widthInv s = true)
    (hp : s.cfg.pinFits p = true) : widthInv (acceptRead m p s) = true := by
  obtain ⟨-, htr, hl, hc⟩ := widthInv_iff.1 h
  exact widthInv_iff.2 ⟨hp, htr, hl, hc⟩

/-! ## The invariant under the steps that touch what it speaks of -/

theorem widthInv_issued {s : State} {c : Instr} (h : widthInv s = true) (hi : portOf c = .ccmd)
    (hf : c.fits s.cfg = true) : widthInv (issued c s) = true := by
  have hw : isCommandOf s.cfg (encode c) = true := isCommandOf_encode hi hf
  cases c with
  | setDir p _ | write p _ => exact widthInv_issueWord (widthInv_setLine h hf _) hw
  | waitEdge _ _ | sleepUs _ | sleepMs _ => exact widthInv_issueWord h hw
  | _ => exact h

theorem widthInv_responded {r : Response} {s t : State} (h : widthInv s = true) (hf : r.instr.fits s.cfg = true)
    (hr : Responded r s t) : widthInv t = true := by
  cases hr with
  | hsDirOut _ _ ht | hsDriveHigh _ _ ht | hsDriveLow _ _ ht | hsRelease _ _ ht =>
    subst ht
    exact widthInv_setLine h (widthInv_iff.1 h).1 _
  | hsIdleHold _ _ ht | hsLowHold _ _ ht | hsSettle _ _ ht | retryDelay _ _ ht | timeout _ _ ht =>
    subst ht
    exact h
  | lead l d _ hr ht | wrongLevel l d _ hr ht =>
    subst hr ht
    exact widthInv_appendTrace l h hf
  | ackLow d _ hr ht | bitLow d _ hr ht =>
    subst hr ht
    exact widthInv_appendTrace .low h hf
  | ackHigh d _ hr ht | bitHigh d _ hr ht =>
    subst hr ht
    exact widthInv_appendTrace .high h hf

/-- Settles O58: of all a step can do, only an accept, a start, an issue and a respond touch what the invariant speaks of, each with
operands that the decoder or the legal configuration has checked against the widths. -/
theorem widthInvariantKept : Obligations.WidthInvariantKept := by
  intro s t h hst
  obtain ⟨hwf, htr⟩ := step_cases hst
  cases htr with
  | accept w rest m p _ _ hd ht =>
    subst ht
    exact widthInv_acceptRead m h (Laws.decodeFor_ok.1 hd).2
  | start _ ht => exact ht ▸ widthInv_startAttempt h
  | issue c hc _ ht =>
    exact ht ▸ widthInv_issued h (portOf_commandOf hc) (commandOf_fits hwf (widthInv_iff.1 h).1 hc)
  | respond w rest r _ _ _ hd hr =>
    exact widthInv_responded (s := { s with crsp := rest }) h (Laws.decodeResponseFor_ok.1 hd).2 hr
  | _ =>
    subst_vars
    exact h

end Sys2Proof.Machine

/-! SUPPORT. What a step answers, state by state: the forward direction of the inversion `step_cases` (spec/00_scope.md R12,
spec/10_state.md R21, R23). -/

namespace Sys2Proof.Machine

theorem step_of_state {s : State} {q : SeqState} (hwf : s.cfg.wf = true) (hq : s.state = q) :
    step s = exec (microOp q) s := hq ▸ step_eq hwf

/-! ## Command states -/

/-- A command state issues a command (R23). -/
theorem commandOf_of_isCommandState {s : State} (h : isCommandState s.state = true) : ∃ c, commandOf s = some c := by
  unfold commandOf
  cases hq : s.state <;> simp only [hq, isCommandState, Bool.false_eq_true] at h <;> exact ⟨_, rfl⟩

theorem respondWith_congr {f g : Response → State → Host.Outcome State Fault Refusal} {s : State}
    (h : ∀ r rest, f r { s with crsp := rest } = g r { s with crsp := rest }) : respondWith f s = respondWith g s := by
  unfold respondWith
  split
  · rfl
  · split
    · rfl
    · exact h _ _

/-- A micro-operation whose clause is the state's own runs `respondIn` while its command is outstanding. -/
theorem ite_respondWith_eq {clause : Response → State → Host.Outcome State Fault Refusal} {s : State}
    {o : Host.Outcome State Fault Refusal}
    (h : ∀ r rest, clause r { s with crsp := rest } = respondIn r { s with crsp := rest }) :
    (if s.pend then respondWith clause s else o) = if s.pend then respondWith respondIn s else o := by
  rw [respondWith_congr h]

/-- The micro-operation of a command state issues the state's command, or runs the state's `respond` clause (R12). -/
theorem exec_microOp_command {s : State} {c : Instr} (hc : commandOf s = some c) :
    exec (microOp s.state) s = if s.pend then respondWith respondIn s else .next (issued c s) := by
  unfold commandOf at hc
  cases hq : s.state <;> simp only [hq, Option.some.injEq, reduceCtorEq] at hc <;> subst hc <;>
    exact ite_respondWith_eq fun r rest => by simp only [respondIn, hq]

theorem step_command {s : State} {c : Instr} (hwf : s.cfg.wf = true) (hc : commandOf s = some c) :
    step s = if s.pend then respondWith respondIn s else .next (issued c s) :=
  (step_eq hwf).trans (exec_microOp_command hc)

/-- A response on offer runs as the `respond` step of the state (R12). -/
theorem step_respond {s : State} {w : Word} {rest : List Word} {r : Response} (hwf : s.cfg.wf = true)
    (hq : isCommandState s.state = true) (hp : s.pend = true) (hr : s.crsp = w :: rest)
    (hd : decodeResponseFor s.cfg w = .ok r) : step s = respondIn r { s with crsp := rest } := by
  obtain ⟨c, hc⟩ := commandOf_of_isCommandState hq
  rw [step_command hwf hc, if_pos hp, respondWith_offered hr hd]

theorem step_issue {s : State} {c : Instr} (hwf : s.cfg.wf = true) (hp : s.pend = false) (hc : commandOf s = some c) :
    step s = .next (issued c s) := by
  rw [step_command hwf hc, hp, if_neg Bool.false_ne_true]

/-! ## `IDLE` -/

/-- A host word that decodes is a READ of a `PIN_W`-bit pin number (R71, R100). -/
theorem decodeFor_hcmd_ok {c : Config} {w : Word} {i : Instr} (h : decodeFor c .hcmd w = .ok i) :
    ∃ m p, i = .read m p ∧ c.pinFits p = true := by
  obtain ⟨hd, hf⟩ := Laws.decodeFor_ok.1 h
  obtain ⟨m, p, rfl⟩ := decodeHC_ok hd
  exact ⟨m, p, rfl, hf⟩

theorem step_accept {s : State} {w : Word} {rest : List Word} {m : SensorModel} {p : Pin} (hwf : s.cfg.wf = true)
    (hq : s.state = .idle) (hw : s.hcmd = w :: rest) (hd : decodeFor s.cfg .hcmd w = .ok (.read m p)) :
    step s = .next (acceptRead m p { s with hcmd := rest }) := by
  rw [step_of_state hwf hq]
  simp only [microOp, exec, execIdle, hw, hd]

theorem step_idleWait {s : State} (hwf : s.cfg.wf = true) (hq : s.state = .idle) (hw : s.hcmd = []) :
    step s = .next s := by
  rw [step_of_state hwf hq]
  simp only [microOp, exec, execIdle, hw]

/-! ## Ill-formed configurations -/

theorem step_illFormed {s : State} (h : s.cfg.wf ≠ true) : step s = .refused .illFormedConfiguration := if_neg h

/-- What `Config.wf` says of the constraints that R9 lists. -/
theorem constraints_of_wf {c : Config} (h : c.wf = true) :
    18 ≤ c.dht11.startHoldMs.toNat ∧ 1 ≤ c.dht22.startHoldMs.toNat ∧ 1 ≤ c.am2302.startHoldMs.toNat ∧ c.dht22 = c.am2302
      ∧ 1 ≤ c.attemptCap.toNat ∧ ∀ m, 0 < (c.record m).bitThresholdUs.toNat
        ∧ (c.record m).bitThresholdUs.toNat < c.edgeTimeoutUs.toNat := by
  simp only [Config.wf, ModelRecord.thresholdOk, List.all_cons, id, Bool.and_eq_true, decide_eq_true_eq] at h
  obtain ⟨h11, h22, h2302, heq, hcap, ht11, ht22, ht2302, -⟩ := h
  exact ⟨h11, h22, h2302, heq, hcap, fun m => by cases m <;> assumption⟩

/-- Settles O38: each disjunct denies a constraint that a legal configuration meets. -/
theorem illFormedConfigurationRefused : Obligations.IllFormedConfigurationRefused := by
  intro s h
  refine step_illFormed fun hwf => ?_
  obtain ⟨h11, h22, h2302, heq, hcap, hthr⟩ := constraints_of_wf hwf
  obtain h | h | h | h | h | ⟨m, h⟩ := h
  · omega
  · omega
  · omega
  · exact h heq
  · simp [h] at hcap
  · obtain ⟨hpos, hlt⟩ := hthr m
    obtain h | h := h
    · simp [h] at hpos
    · omega

/-- Settles O57: each disjunct denies a bound on the widths or on a time operand that a legal configuration meets. -/
theorem widthsBeyondTheFormatsRefused : Obligations.WidthsBeyondTheFormatsRefused := by
  intro s h
  refine step_illFormed fun hwf => ?_
  obtain ⟨hpin, hdur, hhold, hidle, hsettle, hedge, hretry⟩ := Laws.widths_of_wf hwf
  simp only [Laws.durFits_iff] at hhold hidle hsettle hedge hretry
  obtain h | h | ⟨m, h⟩ | h := h
  · omega
  · omega
  · exact absurd (hhold m) (Nat.not_lt.2 h)
  · omega

end Sys2Proof.Machine

/-! SUPPORT. The decoder under the widths PIN_W and DUR_W (spec/00_scope.md R8, spec/30_encoding.md R71 to R73). -/

namespace Sys2Proof.Laws

/-- An operation's word is read where its operands fit the widths, and rejected by name elsewhere. -/
theorem decodeFor_encode {i : Instr} (h : EncodeDecode.Statement i) (c : Config) :
    decodeFor c (portOf i) (encode i) = if i.fits c = true then .ok i else .error .widthExceeded := by
  unfold EncodeDecode.Statement at h
  simp only [decodeFor, h]

theorem decodeFor_error {c : Config} {p : Port} {w : Word} {e : DecodeError} (h : decode p w = .error e) :
    decodeFor c p w = .error e := by
  simp only [decodeFor, h]

/-- With the widths of the words' fields the decoder reads what the formats spell. -/
theorem decodeFor_full_widths {c : Config} (hp : c.pinW = 8) (hd : c.durW = 20) (p : Port) (w : Word) :
    decodeFor c p w = decode p w := by
  cases h : decode p w with
  | error e => exact decodeFor_error h
  | ok i => exact decodeFor_ok.2 ⟨h, fits_of_full_widths hp hd i⟩

/-- Settles O56: the written words are the encoder's, which decode to their operations, and what is left is whether the operands fit. -/
theorem instanceDecodesItsWidths : Obligations.InstanceDecodesItsWidths := by
  refine ⟨fun c p w hp hd => decodeFor_full_widths hp hd p w, fun c m p => ?_, fun c l d => ?_, fun c p d => ?_⟩
  · rw [readWord_eq]
    exact (decodeFor_encode (EncodeDecode.read m p) c).trans (by simp only [Instr.fits, pinFits_iff])
  · rw [edgeWord_eq]
    exact (decodeFor_encode (EncodeDecode.edge l d) c).trans (by simp only [Instr.fits, durFits_iff])
  · rw [waitWord_eq]
    exact (decodeFor_encode (EncodeDecode.waitEdge p d) c).trans
      (by simp only [Instr.fits, Bool.and_eq_true, pinFits_iff, durFits_iff])

/-- The code of a state decodes to the micro-operation it names (R21, R23). -/
theorem decode_stateCode (q : SeqState) : decode .ustate (0#27 ++ stateCode q) = .ok (microOp q) := by
  cases q <;> decide

/-- What decodes on CRSP is a response. -/
theorem decodeFor_crsp_ok {c : Config} {w : Word} {i : Instr} (h : decodeFor c .crsp w = .ok i) :
    ∃ r : Response, i = r.instr ∧ decodeResponseFor c w = .ok r := by
  obtain ⟨hd, hf⟩ := decodeFor_ok.1 h
  simp only [decode, decodeRW] at hd
  split at hd
  · cases hd
  · rename_i r hr
    cases hd
    exact ⟨r, rfl, decodeResponseFor_ok.2 ⟨hr, hf⟩⟩

end Sys2Proof.Laws

/-! SUPPORT. The rows that are words on a port run as the step that transfers, issues or publishes the word (log 9). -/

namespace Sys2Proof.Machine

theorem exec_read {s : State} (m : SensorModel) {p : Pin} (hq : s.state = .idle) (hp : s.cfg.pinFits p = true) :
    exec (.read m p) s = .next (acceptRead m p s) := by
  simp only [exec, execRead, hq, hp, if_true]

theorem exec_response {s : State} {r : Response} (hp : s.pend = true) (hf : r.instr.fits s.cfg = true) :
    exec r.instr s = respondIn r s := by
  cases r with
  | ack => exact if_pos hp
  | timeout => exact if_pos hp
  | edge l d => exact (if_pos hp).trans (if_pos hf)

theorem issuesNow_of_commandOf {s : State} {c : Instr} (hp : s.pend = false) (hc : commandOf s = some c) :
    issuesNow s c = true := by
  simp [issuesNow, hp, hc]

/-- A WRITE is issued to `PIN` only (R112, R114). -/
theorem pin_of_commandOf_write {s : State} {p : Pin} {l : Level} (h : commandOf s = some (.write p l)) : p = s.pin := by
  unfold commandOf at h
  split at h <;> cases h <;> rfl

/-- The row of the command that the state issues now is its `issue` step; a WRITE asks that the pin is not in Input mode (R202). -/
theorem exec_issued {s : State} {c : Instr} (hp : s.pend = false) (hc : commandOf s = some c)
    (hw : ∀ l : Level, c = .write s.pin l → (s.line s.pin).dir ≠ some .input) : exec c s = .next (issued c s) := by
  have hnow : issuesNow s c = true := issuesNow_of_commandOf hp hc
  have hport : portOf c = .ccmd := portOf_commandOf hc
  cases c with
  | setDir _ _ | waitEdge _ _ | sleepUs _ | sleepMs _ => exact if_pos hnow
  | write p l =>
    obtain rfl := pin_of_commandOf_write hc
    exact (if_pos hnow).trans (if_neg (hw l rfl))
  | _ => cases hport

theorem step_reading {s : State} (hwf : s.cfg.wf = true) (hq : s.state = .attDone) (hk : s.attRes = .success) :
    step s = .next (publishReading s) := by
  rw [step_of_state hwf hq]
  exact if_pos hk

theorem step_readError {s : State} (hwf : s.cfg.wf = true) (hq : s.state = .attDone) (hk : s.attRes ≠ .success)
    (ha : s.attempts = s.cfg.attemptCap) : step s = .next (publishReadError { s with lastKind := s.attRes }) := by
  rw [step_of_state hwf hq]
  exact (if_neg hk).trans (if_pos ha)

/-- Settles O37: a clause for each way in which a step runs a decoded operation, the step and the row reduced to the same shared
operation. -/
theorem stepRunsTheDecodedOperation : Obligations.StepRunsTheDecodedOperation := by
  refine ⟨?ustate, ?accepted, ?responded, ?issued, ?reading, ?readError⟩
  case ustate =>
    intro s i hwf hd
    rw [Laws.decode_stateCode] at hd
    cases hd
    exact step_eq hwf
  case accepted =>
    intro s w rest i hwf hq hw hd
    obtain ⟨m, p, rfl, hp⟩ := decodeFor_hcmd_ok hd
    exact (step_accept hwf hq hw hd).trans (exec_read m (s := { s with hcmd := rest }) hq hp).symm
  case responded =>
    intro s w rest i hwf hq hp hr hd
    obtain ⟨r, rfl, hdr⟩ := Laws.decodeFor_crsp_ok hd
    have hf : r.instr.fits s.cfg = true := (Laws.decodeResponseFor_ok.1 hdr).2
    exact (step_respond hwf hq hp hr hdr).trans (exec_response (s := { s with crsp := rest }) hp hf).symm
  case issued =>
    intro s c hwf hp hc hw
    exact (step_issue hwf hp hc).trans (exec_issued hp hc hw).symm
  case reading =>
    intro s hwf hq hk
    exact (step_reading hwf hq hk).trans (if_pos ⟨hq, hk⟩).symm
  case readError =>
    intro s hwf hq hk ha
    exact (step_readError hwf hq hk ha).trans (if_pos ⟨hq, hk, ha, rfl, rfl, rfl⟩).symm

end Sys2Proof.Machine

/-! SUPPORT. Progress under the contract of the two input agents (spec/60_exceptions.md R205). -/

namespace Sys2Proof.Machine

theorem expectLevel_answers {want : Level} {q : SeqState} {r : Response} (s : State) (hr : r ≠ .ack) :
    ∃ t, expectLevel want q r s = .next t := by
  cases r with
  | ack => exact (hr rfl).elim
  | timeout => exact ⟨_, rfl⟩
  | edge l d =>
    simp only [expectLevel]
    split <;> exact ⟨_, rfl⟩

/-- A capture state has a clause for EDGE and TIMEOUT (R132, R133). -/
theorem respondIn_capture_answers {r : Response} {s : State} (hq : isCaptureState s.state = true) (hr : r ≠ .ack) :
    ∃ t, respondIn r s = .next t := by
  unfold respondIn
  cases hs : s.state <;> simp only [hs, isCaptureState, Bool.false_eq_true] at hq
  case capLead =>
    cases r with
    | ack => exact (hr rfl).elim
    | edge _ _ | timeout => exact ⟨_, rfl⟩
  case capBitHigh =>
    cases r with
    | ack => exact (hr rfl).elim
    | edge l _ => cases l <;> exact ⟨_, rfl⟩
    | timeout => exact ⟨_, rfl⟩
  all_goals exact expectLevel_answers s hr

/-- Every other command state has a clause for ACK (R122). -/
theorem respondIn_ack_answers {s : State} (hq : isCommandState s.state = true) (hn : isCaptureState s.state = false) :
    ∃ t, respondIn .ack s = .next t := by
  unfold respondIn
  cases hs : s.state <;> simp only [hs, isCommandState, isCaptureState, Bool.false_eq_true, Bool.true_eq_false] at hq hn <;>
    exact ⟨_, rfl⟩

/-- An allowed response has a step (R77, R205). -/
theorem respondIn_allowed_answers {r : Response} {s : State} (h : allowedResponse s.state r = true) :
    ∃ t, respondIn r s = .next t := by
  cases r with
  | ack =>
    simp only [allowedResponse, Bool.and_eq_true, Bool.not_eq_true'] at h
    exact respondIn_ack_answers h.1 h.2
  | edge _ _ | timeout => exact respondIn_capture_answers h nofun

/-- What the collaborator's contract puts on offer while a command is outstanding. -/
theorem collaboratorReady_offers {s : State} (hp : s.pend = true) (h : collaboratorReady s = true) :
    ∃ w rest r, s.crsp = w :: rest ∧ decodeResponseFor s.cfg w = .ok r ∧ allowedResponse s.state r = true := by
  simp only [collaboratorReady, hp, if_true] at h
  split at h
  · cases h
  · rename_i w rest hr
    split at h
    · rename_i r hd
      exact ⟨w, rest, r, hr, hd, h⟩
    · cases h

/-- What the host's contract puts on offer in `IDLE`. -/
theorem hostReady_offers {s : State} (hq : s.state = .idle) (h : hostReady s = true) :
    ∃ w rest m p, s.hcmd = w :: rest ∧ decodeFor s.cfg .hcmd w = .ok (.read m p) := by
  simp only [hostReady, hq, if_true] at h
  split at h
  · cases h
  · rename_i w rest hw
    split at h
    · rename_i i hd
      obtain ⟨m, p, rfl, -⟩ := decodeFor_hcmd_ok hd
      exact ⟨w, rest, m, p, hw, hd⟩
    · cases h

theorem step_command_answers {s : State} (hwf : s.cfg.wf = true) (hq : isCommandState s.state = true)
    (h : collaboratorReady s = true) : ∃ t, step s = .next t := by
  obtain ⟨c, hc⟩ := commandOf_of_isCommandState hq
  cases hp : s.pend with
  | false => exact ⟨_, step_issue hwf hp hc⟩
  | true =>
    obtain ⟨w, rest, r, hr, hd, ha⟩ := collaboratorReady_offers hp h
    obtain ⟨t, ht⟩ := respondIn_allowed_answers (s := { s with crsp := rest }) ha
    exact ⟨t, (step_respond hwf hq hp hr hd).trans ht⟩

theorem step_idle_answers {s : State} (hwf : s.cfg.wf = true) (hq : s.state = .idle)
    (h : hostReady s = true ∨ s.hcmd = []) : ∃ t, step s = .next t := by
  obtain h | h := h
  · obtain ⟨w, rest, m, p, hw, hd⟩ := hostReady_offers hq h
    exact ⟨_, step_accept hwf hq hw hd⟩
  · exact ⟨s, step_idleWait hwf hq h⟩

/-- The internal states depend on no agent (R12). -/
theorem step_internal_answers {s : State} (hwf : s.cfg.wf = true) (hi : s.state ≠ .idle)
    (hq : isCommandState s.state = false) : ∃ t, step s = .next t := by
  rw [step_eq hwf]
  cases hs : s.state <;> simp only [hs, isCommandState, Bool.true_eq_false, ne_eq, not_true_eq_false] at hq hi <;>
    simp only [microOp, exec]
  case attStart => exact ⟨_, rfl⟩
  case check =>
    unfold execCheck
    split <;> exact ⟨_, rfl⟩
  case convert => exact ⟨_, rfl⟩
  case gate =>
    unfold execGate
    split <;> exact ⟨_, rfl⟩
  case attDone =>
    unfold execAttDone
    split
    · exact ⟨_, rfl⟩
    · split <;> exact ⟨_, rfl⟩

/-- Settles O42: `IDLE` answers by the host's contract, a command state by the collaborator's, an internal state by itself. -/
theorem contractKeepsItRunning : Obligations.ContractKeepsItRunning := by
  intro s hwf _ hcol hhost
  by_cases hi : s.state = .idle
  · exact step_idle_answers hwf hi hhost
  · cases hq : isCommandState s.state with
    | true => exact step_command_answers hwf hq hcol
    | false => exact step_internal_answers hwf hi hq

end Sys2Proof.Machine

/-! SUPPORT. What the `issue` step and the `respond` step leave unchanged, said once for all commands and all responses
(spec/00_scope.md R12, spec/10_state.md R44). -/

namespace Sys2Proof.Machine

/-- An `issue` step touches `PEND`, CCMD and the line, nothing else (R12). -/
theorem issued_frame {c : Instr} {s : State} (h : commandOf s = some c) :
    issued c s = { s with pend := true, ccmd := s.ccmd ++ [encode c], lines := (issued c s).lines } := by
  have hport : portOf c = .ccmd := portOf_commandOf h
  cases c with
  | setDir _ _ | write _ _ | waitEdge _ _ | sleepUs _ | sleepMs _ => rfl
  | _ => cases hport

/-- A `respond` step clears `PEND` and touches, beside `STATE`, the capture's registers, `ATT_RES` and the line (R12). -/
theorem responded_frame {r : Response} {s t : State} (h : Responded r s t) :
    t = { s with pend := false, state := t.state, sr := t.sr, bitcnt := t.bitcnt, attRes := t.attRes,
                 trace := t.trace, lines := t.lines } := by
  cases h <;> subst_vars <;> rfl

/-- A command is issued in a command state only (R23). -/
theorem isCommandState_of_commandOf {s : State} {c : Instr} (h : commandOf s = some c) : isCommandState s.state = true := by
  unfold commandOf at h
  cases hq : s.state <;> simp only [hq, reduceCtorEq] at h <;> rfl

/-- The states in which a segment can have the wrong level are capture states (R135 to R138). -/
theorem isCaptureState_of_wrongLevel {q : SeqState} {l : Level}
    (h : (q = .capAckLow ∧ l = .high) ∨ (q = .capAckHigh ∧ l = .low) ∨ (q = .capBitLow ∧ l = .high)
      ∨ (q = .capBitHigh ∧ l = .low)) : isCaptureState q = true := by
  obtain ⟨rfl, -⟩ | ⟨rfl, -⟩ | ⟨rfl, -⟩ | ⟨rfl, -⟩ := h <;> rfl

end Sys2Proof.Machine

/-! SUPPORT. The counters of an attempt, kept by every step (spec/10_state.md R27, R34, R38). -/

namespace Sys2Proof.Machine

/-- A bit shifted in below `2^n` gives a value below `2^(n+1)` while the frame is not full (R140). -/
theorem accumulate_lt {sr : Frame} {n : Nat} (h : sr.toNat < 2 ^ n) (b : BitVec 1) :
    (accumulate sr b).toNat < 2 ^ (n + 1) := by
  have hb : b.toNat < 2 := b.isLt
  have hp : 0 < 2 ^ n := Nat.two_pow_pos n
  have hshift : (sr <<< 1).toNat < 2 ^ (n + 1) := by
    rw [BitVec.toNat_shiftLeft, Nat.shiftLeft_eq]
    omega
  have hbit : (b.setWidth 40).toNat < 2 ^ (n + 1) := by
    rw [BitVec.toNat_setWidth]
    omega
  rw [accumulate, BitVec.toNat_or]
  exact Nat.or_lt_two_pow hshift hbit

theorem segIdx_appendTrace (l : Level) (d : Dur) (s : State) : segIdx (appendTrace l d s) = segIdx s + 1 := by
  simp [segIdx]

/-- What the invariant says of an attempt that waits for a segment: few segments mean that no bit has been shifted in. -/
theorem countInv_capture {s : State} (h : countInv s = true) (hq : isCaptureState s.state = true) :
    (1 ≤ s.attempts.toNat ∧ s.attempts.toNat ≤ s.cfg.attemptCap.toNat) ∧ s.bitcnt.toNat < 40 ∧ segIdx s ≤ 82
      ∧ (segIdx s ≤ 3 → s.bitcnt = 0 ∧ s.sr = 0) := by
  cases hs : s.state <;> simp only [hs, isCaptureState, Bool.false_eq_true] at hq <;>
    simp only [countInv, hs, decide_eq_true_eq] at h
  case capLead | capAckLow | capAckHigh =>
    obtain ⟨ha, hcap, hb, hsr, hseg⟩ := h
    exact ⟨⟨ha, hcap⟩, by simp [hb], by omega, fun _ => ⟨hb, hsr⟩⟩
  case capBitLow =>
    obtain ⟨ha, hcap, hb, hsr, hseg⟩ := h
    refine ⟨⟨ha, hcap⟩, hb, by omega, fun hle => ?_⟩
    have hb0 : s.bitcnt = 0 := BitVec.eq_of_toNat_eq (by simp; omega)
    exact ⟨hb0, BitVec.eq_of_toNat_eq (by simpa [hb0] using hsr)⟩
  case capBitHigh =>
    obtain ⟨ha, hcap, hb, -, hseg⟩ := h
    exact ⟨⟨ha, hcap⟩, hb, by omega, fun hle => by omega⟩

/-- An attempt that fails leaves counters within their bounds (R194). -/
theorem countInv_attemptFail {s : State} {k : AttRes} (hk : k ≠ .success)
    (ha : 1 ≤ s.attempts.toNat ∧ s.attempts.toNat ≤ s.cfg.attemptCap.toNat) (hb : s.bitcnt.toNat ≤ 40)
    (hseg : segIdx s ≤ 83) (hfew : segIdx s ≤ 3 → s.bitcnt = 0 ∧ s.sr = 0) : countInv (attemptFail k s) = true := by
  simp only [countInv, attemptFail_state, decide_eq_true_eq]
  exact ⟨ha.1, ha.2, hb, hseg, fun he => absurd he hk, hfew⟩

/-- A wait that ends in a time-out leaves counters within their bounds (R133). -/
theorem countInv_captureTimeout {s : State} (h : countInv s = true) (hq : isCaptureState s.state = true) :
    countInv (captureTimeout s) = true := by
  obtain ⟨ha, hb, hseg, hfew⟩ := countInv_capture h hq
  exact countInv_attemptFail (s := { s with pend := false }) nofun ha hb.le (hseg.trans (by decide)) hfew

/-- A segment of the wrong level is counted, and the attempt fails (R131, R135 to R138). -/
theorem countInv_wrongLevel {s : State} (h : countInv s = true) (hq : isCaptureState s.state = true) (l : Level) (d : Dur) :
    countInv (captureTimeout (appendTrace l d s)) = true := by
  obtain ⟨ha, hb, hseg, hfew⟩ := countInv_capture h hq
  have hone : segIdx { appendTrace l d s with pend := false } = segIdx s + 1 := segIdx_appendTrace l d s
  exact countInv_attemptFail (s := { appendTrace l d s with pend := false }) nofun ha hb.le (by omega)
    fun hle => hfew (by omega)

/-- A bit shifted in: the fortieth fills the frame, every other one leads back to `CAP_BIT_LOW` (R138, R140). -/
theorem countInv_shiftBit {s : State} (ha : 1 ≤ s.attempts.toNat) (hcap : s.attempts.toNat ≤ s.cfg.attemptCap.toNat)
    (hb : s.bitcnt.toNat < 40) (hsr : s.sr.toNat < 2 ^ s.bitcnt.toNat) (hseg : segIdx s = 5 + 2 * s.bitcnt.toNat) (d : Dur) :
    countInv (shiftBit d s) = true := by
  have hsucc : (s.bitcnt + 1).toNat = s.bitcnt.toNat + 1 := by
    rw [BitVec.toNat_add]
    exact Nat.mod_eq_of_lt (by simp; omega)
  have hseg' : segIdx (shiftBit d s) = segIdx s := rfl
  by_cases hlast : s.bitcnt = 39
  · have hstate : afterBit (s.bitcnt + 1) = .check := by rw [afterBit_succ, if_pos hlast]
    simp only [countInv, shiftBit_state, hstate]
    exact decide_eq_true ⟨ha, hcap, by rw [shiftBit_bitcnt, hlast]; rfl, by rw [hseg', hseg, hlast]; rfl⟩
  · have hstate : afterBit (s.bitcnt + 1) = .capBitLow := by rw [afterBit_succ, if_neg hlast]
    have hlt : s.bitcnt.toNat ≠ 39 := fun he => hlast (BitVec.eq_of_toNat_eq he)
    simp only [countInv, shiftBit_state, hstate]
    refine decide_eq_true ⟨ha, hcap, ?_, ?_, ?_⟩
    · rw [shiftBit_bitcnt]
      omega
    · rw [shiftBit_bitcnt, hsucc]
      exact accumulate_lt hsr _
    · rw [shiftBit_bitcnt]
      omega

theorem countInv_responded {r : Response} {s t : State} (h : countInv s = true) (hr : Responded r s t) :
    countInv t = true := by
  cases hr with
  | hsDirOut hq _ ht | hsDriveHigh hq _ ht | hsIdleHold hq _ ht | hsDriveLow hq _ ht | hsLowHold hq _ ht
  | hsRelease hq _ ht | hsSettle hq _ ht =>
    subst ht
    simp only [countInv, hq] at h
    exact h
  | retryDelay hq _ ht =>
    subst ht
    simp only [countInv, hq, decide_eq_true_eq] at h ⊢
    exact h.2
  | lead l d hq _ ht =>
    subst ht
    simp only [countInv, hq, decide_eq_true_eq] at h ⊢
    obtain ⟨ha, hcap, hb, hsr, hseg⟩ := h
    exact ⟨ha, hcap, hb, hsr, (segIdx_appendTrace l d s).trans (by omega)⟩
  | ackLow d hq _ ht =>
    subst ht
    simp only [countInv, hq, decide_eq_true_eq] at h ⊢
    obtain ⟨ha, hcap, hb, hsr, hseg⟩ := h
    exact ⟨ha, hcap, hb, hsr, (segIdx_appendTrace .low d s).trans (by omega)⟩
  | ackHigh d hq _ ht =>
    subst ht
    simp only [countInv, hq, decide_eq_true_eq] at h ⊢
    obtain ⟨ha, hcap, hb, hsr, hseg⟩ := h
    refine ⟨ha, hcap, ?_, ?_, ?_⟩
    · show s.bitcnt.toNat < 40
      simp [hb]
    · show s.sr.toNat < 2 ^ s.bitcnt.toNat
      simp [hb, hsr]
    · refine (segIdx_appendTrace .high d s).trans ?_
      show _ = 3 + 2 * s.bitcnt.toNat
      simp [hb, hseg]
  | bitLow d hq _ ht =>
    subst ht
    simp only [countInv, hq, decide_eq_true_eq] at h ⊢
    obtain ⟨ha, hcap, hb, hsr, hseg⟩ := h
    exact ⟨ha, hcap, hb, hsr, (segIdx_appendTrace .low d s).trans (by simp; omega)⟩
  | bitHigh d hq _ ht =>
    subst ht
    simp only [countInv, hq, decide_eq_true_eq] at h
    obtain ⟨ha, hcap, hb, hsr, hseg⟩ := h
    exact countInv_shiftBit (s := { appendTrace .high d s with pend := false }) ha hcap hb hsr
      ((segIdx_appendTrace .high d s).trans (by rw [hseg]; exact Nat.add_right_comm _ _ _)) d
  | wrongLevel l d hq _ ht => exact ht ▸ countInv_wrongLevel h (isCaptureState_of_wrongLevel hq) l d
  | timeout hq _ ht => exact ht ▸ countInv_captureTimeout h hq

/-- The next attempt is within the cap, and it starts with the counters cleared (R110). -/
theorem countInv_startAttempt {s : State} (h : countInv s = true) (hq : s.state = .attStart) :
    countInv (startAttempt s) = true := by
  simp only [countInv, hq, decide_eq_true_eq] at h
  have hcap : s.cfg.attemptCap.toNat < 2 ^ 8 := s.cfg.attemptCap.isLt
  have hsucc : (s.attempts + 1).toNat = s.attempts.toNat + 1 := by
    rw [BitVec.toNat_add]
    exact Nat.mod_eq_of_lt (by simp; omega)
  refine decide_eq_true ⟨?_, ?_, rfl, rfl, rfl⟩
  · show 1 ≤ (s.attempts + 1).toNat
    omega
  · show (s.attempts + 1).toNat ≤ s.cfg.attemptCap.toNat
    omega

/-- Settles O49: an accept starts below the cap, which a legal configuration puts at 1 or more; a `respond` step counts its segment and
its bit; a retry is taken below the cap only. -/
theorem countInvariantKept : Obligations.CountInvariantKept := by
  intro s t h hst
  obtain ⟨hwf, htr⟩ := step_cases hst
  cases htr with
  | idleWait _ _ ht | wait _ _ _ ht => exact ht ▸ h
  | accept w rest m p _ _ _ ht =>
    subst ht
    obtain ⟨-, -, -, -, hcap, -⟩ := constraints_of_wf hwf
    exact decide_eq_true (p := 0 < s.cfg.attemptCap.toNat) hcap
  | start hq ht => exact ht ▸ countInv_startAttempt h hq
  | issue c hc _ ht =>
    subst ht
    rw [issued_frame hc]
    exact h
  | respond w rest r _ _ _ _ hr => exact countInv_responded (s := { s with crsp := rest }) h hr
  | checkOk hq _ ht | convert hq ht =>
    subst ht
    simp only [countInv, hq] at h
    exact h
  | checkFail hq _ ht | gateFail hq _ ht =>
    subst ht
    simp only [countInv, hq, decide_eq_true_eq] at h
    obtain ⟨ha, hcap, hb, hseg⟩ := h
    exact countInv_attemptFail nofun ⟨ha, hcap⟩ (by simp [hb]) hseg.le (by omega)
  | gateOk hq _ _ ht =>
    subst ht
    simp only [countInv, hq, decide_eq_true_eq] at h ⊢
    obtain ⟨ha, hcap, hb, hseg⟩ := h
    exact ⟨ha, hcap, by simp [hb], hseg.le, fun _ => ⟨hb, hseg⟩, fun hle => absurd (hseg.symm.trans_le hle) (by decide)⟩
  | reading _ _ ht | readError _ _ _ ht =>
    subst ht
    rfl
  | retry hq _ hne ht =>
    subst ht
    simp only [countInv, hq, decide_eq_true_eq] at h ⊢
    obtain ⟨ha, hcap, -⟩ := h
    have hne : s.attempts.toNat ≠ s.cfg.attemptCap.toNat := fun he => hne (BitVec.eq_of_toNat_eq he)
    omega

end Sys2Proof.Machine

/-! SUPPORT. What every step keeps of `STATE`, `PEND` and the registers (spec/10_state.md R22, R23, R44). -/

namespace Sys2Proof.Machine

/-! ## Successors (R23) -/

/-- Every wait for a segment can end the attempt (R133, R191). -/
theorem attDone_mem_successors {q : SeqState} (h : isCaptureState q = true) : .attDone ∈ successors q := by
  cases q <;> simp only [isCaptureState, Bool.false_eq_true] at h <;> decide

/-- After a bit the sequencer is in one of the two states that R138 names. -/
theorem afterBit_mem_successors (n : BitVec 6) : afterBit n ∈ successors .capBitHigh := by
  unfold afterBit
  split <;> decide

/-- A response leads to the first successor, but for the bit loop's choice and a failed wait. -/
theorem responded_successor {r : Response} {s t : State} (h : Responded r s t) : t.state ∈ successors s.state := by
  cases h with
  | bitHigh d hq _ ht =>
    rw [ht, hq]
    exact afterBit_mem_successors _
  | wrongLevel l d hq _ ht => exact ht ▸ attDone_mem_successors (isCaptureState_of_wrongLevel hq)
  | timeout hq _ ht => exact ht ▸ attDone_mem_successors hq
  | hsDirOut hq _ ht | hsDriveHigh hq _ ht | hsIdleHold hq _ ht | hsDriveLow hq _ ht | hsLowHold hq _ ht
  | hsRelease hq _ ht | hsSettle hq _ ht | retryDelay hq _ ht | lead _ _ hq _ ht | ackLow _ hq _ ht | ackHigh _ hq _ ht
  | bitLow _ hq _ ht =>
    rw [ht, hq]
    exact List.mem_cons_self

/-- Settles O39: waiting and issuing keep the state, every other step leads to one of the state's successors. -/
theorem successorsAsTabulated : Obligations.SuccessorsAsTabulated := by
  intro s t hst
  obtain ⟨-, htr⟩ := step_cases hst
  cases htr with
  | idleWait _ _ ht | wait _ _ _ ht => exact .inl (ht ▸ rfl)
  | issue c hc _ ht =>
    rw [ht, issued_frame hc]
    exact .inl rfl
  | respond w rest r _ _ _ _ hr => exact .inr (responded_successor (s := { s with crsp := rest }) hr)
  | accept _ _ _ _ hq _ _ ht | start hq ht | checkOk hq _ ht | convert hq ht | gateOk hq _ _ ht | gateFail hq _ ht
  | reading hq _ ht | readError hq _ _ ht =>
    rw [ht, hq]
    exact .inr List.mem_cons_self
  | checkFail hq _ ht | retry hq _ _ ht =>
    rw [ht, hq]
    exact .inr (List.mem_cons_of_mem _ List.mem_cons_self)

/-! ## `PEND` (R22) -/

theorem pendInv_iff {s : State} : pendInv s = true ↔ (s.pend = true → isCommandState s.state = true) := by
  unfold pendInv
  cases s.pend <;> simp

theorem pendInv_of_not_pend {s : State} (h : s.pend = false) : pendInv s = true := pendInv_iff.2 (h ▸ nofun)

/-- In an internal state and in `IDLE` no command is outstanding. -/
theorem not_pend_of_pendInv {s : State} (h : pendInv s = true) (hq : isCommandState s.state = false) : s.pend = false :=
  Bool.eq_false_iff.2 fun hp => Bool.eq_false_iff.1 hq (pendInv_iff.1 h hp)

theorem responded_not_pend {r : Response} {s t : State} (h : Responded r s t) : t.pend = false := by
  rw [responded_frame h]

/-- Settles O48: a command state issues and then waits, a response clears `PEND`, and no other step touches it. -/
theorem pendInvariantKept : Obligations.PendInvariantKept := by
  intro s t h hst
  obtain ⟨-, htr⟩ := step_cases hst
  cases htr with
  | idleWait _ _ ht | wait _ _ _ ht => exact ht ▸ h
  | issue c hc _ ht =>
    rw [ht, issued_frame hc]
    exact pendInv_iff.2 fun _ => isCommandState_of_commandOf hc
  | respond w rest r _ _ _ _ hr => exact pendInv_of_not_pend (responded_not_pend hr)
  | accept _ _ _ _ hq _ _ ht | start hq ht | checkOk hq _ ht | checkFail hq _ ht | convert hq ht | gateOk hq _ _ ht
  | gateFail hq _ ht | reading hq _ ht | readError hq _ _ ht | retry hq _ _ ht =>
    have hp : s.pend = false := not_pend_of_pendInv h (hq ▸ rfl)
    exact ht ▸ pendInv_of_not_pend hp

/-! ## The registers, by the states that write them (R44) -/

/-- Of the responses only a bit shifted in writes `SR` and `BITCNT` (R138, R140). -/
theorem responded_sr_bitcnt {r : Response} {s t : State} (h : Responded r s t) (hq : s.state ≠ .capBitHigh) :
    t.sr = s.sr ∧ t.bitcnt = s.bitcnt := by
  cases h with
  | bitHigh _ hb => exact absurd hb hq
  | _ =>
    subst_vars
    exact ⟨rfl, rfl⟩

/-- Of the responses only one that fails a wait for a segment writes `ATT_RES` (R194). -/
theorem responded_attRes {r : Response} {s t : State} (h : Responded r s t) (hq : isCaptureState s.state = false) :
    t.attRes = s.attRes := by
  cases h with
  | wrongLevel _ _ hw => exact absurd (isCaptureState_of_wrongLevel hw) (Bool.eq_false_iff.1 hq)
  | timeout hw => exact absurd hw (Bool.eq_false_iff.1 hq)
  | _ =>
    subst_vars
    rfl

/-- Settles O44: waiting and issuing write no register; a response writes the capture's registers and `ATT_RES` as the two lemmas
above say; each other step belongs to one state, and its own frame names what it writes. -/
theorem accessSummary : Obligations.AccessSummary := by
  intro s t hst
  obtain ⟨-, htr⟩ := step_cases hst
  cases htr with
  | idleWait _ _ ht | wait _ _ _ ht =>
    subst ht
    simp
  | issue c hc _ ht =>
    rw [ht, issued_frame hc]
    simp
  | respond w rest r _ _ _ _ hr =>
    have hsr : s.state ≠ .capBitHigh → t.sr = s.sr ∧ t.bitcnt = s.bitcnt :=
      responded_sr_bitcnt (s := { s with crsp := rest }) hr
    have hres : isCaptureState s.state = false → t.attRes = s.attRes :=
      responded_attRes (s := { s with crsp := rest }) hr
    refine ⟨?_, fun _ => hsr, ?_, fun h _ _ => hres h, ?_⟩ <;> rw [responded_frame hr] <;> simp
  | accept _ _ _ _ hq _ _ ht | start hq ht | checkOk hq _ ht | checkFail hq _ ht | convert hq ht | gateOk hq _ _ ht
  | gateFail hq _ ht | reading hq _ ht | readError hq _ _ ht | retry hq _ _ ht =>
    subst ht
    simp [hq]

end Sys2Proof.Machine

/-! SUPPORT. The invariants hold after reset (spec/10_state.md R42, spec/70_reset_and_hazards.md R215). -/

namespace Sys2Proof.Machine

/-- Pin 0 is a pin number whatever `PIN_W` is. -/
theorem pinFits_zero (c : Config) : c.pinFits 0 = true := (Laws.pinFits_iff c 0).2 (Nat.two_pow_pos _)

/-- Settles O47: in `IDLE` with no result, an empty trace, no line listed and no command issued, only the width of `PIN` is left. -/
theorem resetMeetsTheInvariants : Obligations.ResetMeetsTheInvariants := by
  intro c
  have hwidth : widthInv (State.resetWith c) = true :=
    widthInv_iff.2 ⟨pinFits_zero c, List.forall_mem_nil _, List.forall_mem_nil _, List.forall_mem_nil _⟩
  exact ⟨rfl, rfl, rfl, rfl, hwidth⟩

end Sys2Proof.Machine

/-! SUPPORT. What the result registers hold, kept by every step (spec/10_state.md R36, R41, spec/44_convert_gate.md R170). -/

namespace Sys2Proof.Machine

theorem ne_idle_of_isCommandState {q : SeqState} (h : isCommandState q = true) : q ≠ .idle := by
  rintro rfl
  cases h

theorem ne_idle_of_isCaptureState {q : SeqState} (h : isCaptureState q = true) : q ≠ .idle := by
  rintro rfl
  cases h

/-- While a read runs there is no result (R36, R100). -/
theorem noResult_of_resultInv {s : State} (h : resultInv s = true) (hq : s.state ≠ .idle) :
    s.rs = 0 ∧ s.resHum = none ∧ s.resTemp = none := by
  cases hs : s.state <;> simp only [resultInv, hs, Bool.and_eq_true, decide_eq_true_eq] at h
  case idle => exact absurd hs hq
  case convert | attDone => exact h.1
  case gate => exact h.1.1
  all_goals exact h

theorem frameOk_of_resultInv {s : State} (h : resultInv s = true) (hq : s.state = .convert) : frameOk s.sr = true := by
  simp only [resultInv, hq, Bool.and_eq_true] at h
  exact h.2

theorem converted_of_resultInv {s : State} (h : resultInv s = true) (hq : s.state = .gate) :
    frameOk s.sr = true ∧ floatsConverted s = true := by
  simp only [resultInv, hq, Bool.and_eq_true] at h
  exact ⟨h.1.2, h.2⟩

theorem readingSound_of_resultInv {s : State} (h : resultInv s = true) (hq : s.state = .attDone) (hk : s.attRes = .success) :
    readingSound s = true := by
  simp only [resultInv, hq, hk, Bool.and_eq_true] at h
  exact h.2

/-- An attempt that fails leaves no result (R194). -/
theorem resultInv_attemptFail {s : State} (h : s.rs = 0 ∧ s.resHum = none ∧ s.resTemp = none) {k : AttRes} (hk : k ≠ .success) :
    resultInv (attemptFail k s) = true := by
  simp [resultInv, h, hk]

theorem resultInv_shiftBit {s : State} (h : s.rs = 0 ∧ s.resHum = none ∧ s.resTemp = none) (d : Dur) :
    resultInv (shiftBit d s) = true := by
  unfold resultInv
  rw [shiftBit_state, afterBit]
  by_cases hfull : s.bitcnt + 1 = 40
  · rw [if_pos hfull]
    exact decide_eq_true h
  · rw [if_neg hfull]
    exact decide_eq_true h

theorem resultInv_responded {r : Response} {s t : State} (h : s.rs = 0 ∧ s.resHum = none ∧ s.resTemp = none)
    (hr : Responded r s t) : resultInv t = true := by
  cases hr with
  | bitHigh d _ _ ht =>
    exact ht ▸ resultInv_shiftBit (s := { appendTrace .high d s with pend := false }) h d
  | wrongLevel l d _ _ ht =>
    exact ht ▸ resultInv_attemptFail (s := { appendTrace l d s with pend := false }) h nofun
  | timeout _ _ ht => exact ht ▸ resultInv_attemptFail (s := { s with pend := false }) h nofun
  | _ =>
    subst_vars
    exact decide_eq_true h

/-- A frame that passed the checksum and the gate is a sound reading (R170). -/
theorem readingSound_of_gate {s : State} (h : resultInv s = true) (hq : s.state = .gate) (hh : hOk s = true)
    (ht : tOk s = true) : readingSound s = true := by
  obtain ⟨hok, hconv⟩ := converted_of_resultInv h hq
  unfold hOk at hh
  unfold tOk at ht
  simp [readingSound, hok, hconv, hh, ht]

/-- A sound reading is published with its floats (R102). -/
theorem resultInv_publishReading {s : State} (h : readingSound s = true) : resultInv (publishReading s) = true := by
  have hword : encode .resultReading = 0x80000000 := by decide
  have hsound : readingSound (publishReading s) = true := h
  simp [resultInv, hsound, hword]

/-- An error is published with its kind and the cap (R103). -/
theorem resultInv_publishReadError {s : State} (hk : s.lastKind ≠ .success) (ha : s.attempts = s.cfg.attemptCap) :
    resultInv (publishReadError s) = true := by
  have hword : encode (.resultReadError s.lastKind s.attempts)
      = 0xC0000000 ||| ((attResCode s.lastKind).setWidth 32 <<< 8) ||| s.cfg.attemptCap.setWidth 32 :=
    ha ▸ (Laws.readErrorWord_eq s.lastKind s.attempts).symm
  simp [resultInv, hk, hword]

/-- Settles O50: `CHECK`, `CONVERT` and `GATE` each establish one part of a sound reading and keep the parts before it, and
`ATT_DONE` publishes the reading they make or the failure. -/
theorem resultInvariantKept : Obligations.ResultInvariantKept := by
  intro s t h hst
  obtain ⟨-, htr⟩ := step_cases hst
  have hres : s.state ≠ .idle → s.rs = 0 ∧ s.resHum = none ∧ s.resTemp = none := noResult_of_resultInv h
  cases htr with
  | idleWait _ _ ht | wait _ _ _ ht => exact ht ▸ h
  | accept _ _ _ _ _ _ _ ht => exact ht ▸ rfl
  | issue c hc _ ht =>
    rw [ht, issued_frame hc]
    exact h
  | respond w rest r hq _ _ _ hr =>
    exact resultInv_responded (s := { s with crsp := rest }) (hres (ne_idle_of_isCommandState hq)) hr
  | start hq ht | retry hq _ _ ht =>
    rw [ht]
    exact decide_eq_true (hres (by simp [hq]))
  | checkFail hq _ ht | gateFail hq _ ht => exact ht ▸ resultInv_attemptFail (hres (by simp [hq])) nofun
  | checkOk hq hk ht =>
    rw [ht]
    exact Bool.and_eq_true_iff.2 ⟨decide_eq_true (hres (by simp [hq])), hk⟩
  | convert hq ht =>
    have hok : frameOk s.sr = true := frameOk_of_resultInv h hq
    have hconv : floatsConverted t = true := ht ▸ Bool.and_eq_true_iff.2 ⟨decide_eq_true rfl, decide_eq_true rfl⟩
    rw [ht] at hconv ⊢
    exact Bool.and_eq_true_iff.2 ⟨Bool.and_eq_true_iff.2 ⟨decide_eq_true (hres (by simp [hq])), hok⟩, hconv⟩
  | gateOk hq hh hk ht =>
    have hsound : readingSound s = true := readingSound_of_gate h hq hh hk
    rw [ht]
    exact Bool.and_eq_true_iff.2 ⟨decide_eq_true (hres (by simp [hq])), hsound⟩
  | reading hq hk ht => exact ht ▸ resultInv_publishReading (readingSound_of_resultInv h hq hk)
  | readError _ hk ha ht => exact ht ▸ resultInv_publishReadError (s := { s with lastKind := s.attRes }) hk ha

end Sys2Proof.Machine

/-! SUPPORT. The line, kept by every step (spec/10_state.md R39, spec/20_memory.md R52, spec/41_handshake.md R118, R119). -/

namespace Sys2Proof.Machine

/-! ## The line space under a write -/

theorem le_of_mem_wfFrom {l : List (Nat × Line)} {a : Nat} {e : Nat × Line} (h : Lines.wfFrom a l = true) (he : e ∈ l) :
    a ≤ e.1 := by
  induction l generalizing a with
  | nil => cases he
  | cons b rest ih =>
    simp only [Lines.wfFrom, Bool.and_eq_true, decide_eq_true_eq] at h
    obtain ⟨⟨⟨hle, -⟩, -⟩, hrest⟩ := h
    obtain rfl | he := List.mem_cons.1 he
    · exact hle
    · have hlt : b.1 + 1 ≤ e.1 := ih hrest he
      omega

/-- In the canonical form a write leaves one entry at most for its pin, the one written. -/
theorem mem_write_of_wfFrom {l : List (Nat × Line)} {a p : Nat} {v : Line} {e : Nat × Line} (h : Lines.wfFrom a l = true)
    (he : e ∈ Lines.write l p v) : e = (p, v) ∨ (e ∈ l ∧ e.1 ≠ p) := by
  induction l generalizing a with
  | nil =>
    simp only [Lines.write] at he
    split at he
    · cases he
    · exact .inl (List.mem_singleton.1 he)
  | cons b rest ih =>
    obtain ⟨q, u⟩ := b
    simp only [Lines.wfFrom, Bool.and_eq_true, decide_eq_true_eq] at h
    obtain ⟨⟨⟨hle, -⟩, -⟩, hrest⟩ := h
    have habove : ∀ x ∈ rest, q + 1 ≤ x.1 := fun x hx => le_of_mem_wfFrom hrest hx
    simp only [Lines.write] at he
    grind

/-! ## The invariant, clause by clause -/

theorem lineInv_iff {s : State} : lineInv s = true ↔
    Lines.wf s.lines = true ∧ (drivesLine s = true → (s.line s.pin).dir = some .output)
      ∧ (releasedLine s = true → (s.line s.pin).dir = some .input) ∧ levelEstablished s = true ∧ onlyDriven s = true := by
  unfold lineInv
  cases drivesLine s <;> cases releasedLine s <;> simp [and_assoc]

theorem onlyDriven_iff {s : State} : onlyDriven s = true ↔
    ∀ e ∈ s.lines, e.2.dir = some .output → drivesLine s = true ∧ e.1 = s.pin.toNat := by
  simp [onlyDriven, or_iff_not_imp_left]

/-- A step that leaves the line and `PIN` alone keeps the invariant where the new state asks no more of the line than the old. -/
theorem lineInv_of_same_lines {s t : State} (h : lineInv s = true) (hl : t.lines = s.lines) (hp : t.pin = s.pin)
    (hd : drivesLine t = drivesLine s) (hr : releasedLine t = true → releasedLine s = true)
    (hv : levelEstablished s = true → levelEstablished t = true) : lineInv t = true := by
  obtain ⟨hwf, hout, hin, hlev, honly⟩ := lineInv_iff.1 h
  have hline : t.line t.pin = s.line s.pin := hp ▸ line_congr hl t.pin
  refine lineInv_iff.2 ⟨hl ▸ hwf, fun ht => hline ▸ hout (hd ▸ ht), fun ht => hline ▸ hin (hr ht), hv hlev, ?_⟩
  rw [onlyDriven_iff] at honly ⊢
  rwa [hl, hd, hp]

/-- A step that writes `PIN`'s line keeps the invariant where what is written is what the new state asks for: whatever the old state
drove was `PIN`, so the write leaves no other pin in Output mode. -/
theorem lineInv_of_write {s t : State} {v : Line} (h : lineInv s = true) (hl : t.lines = Lines.write s.lines s.pin.toNat v)
    (hp : t.pin = s.pin) (hd : drivesLine t = true ↔ v.dir = some .output)
    (hr : releasedLine t = true → v.dir = some .input) (hv : t.line t.pin = v → levelEstablished t = true) :
    lineInv t = true := by
  obtain ⟨hwf, -, -, -, honly⟩ := lineInv_iff.1 h
  have hline : t.line t.pin = v := by
    rw [hp, line_congr (t := s.setLine s.pin v) hl]
    exact line_setLine_same hwf s.pin v
  refine lineInv_iff.2 ⟨hl ▸ wf_write hwf s.pin v, fun ht => hline ▸ hd.1 ht, fun ht => hline ▸ hr ht, hv hline, ?_⟩
  refine onlyDriven_iff.2 fun e he hdir => ?_
  obtain rfl | ⟨he, hne⟩ := mem_write_of_wfFrom hwf (hl ▸ he)
  · exact ⟨hd.2 hdir, hp ▸ rfl⟩
  · exact absurd (onlyDriven_iff.1 honly e he hdir).2 hne

/-- In `IDLE` no pin is driven, so an accepted READ may name any pin (R100). -/
theorem lineInv_acceptRead {s : State} (h : lineInv s = true) (hq : s.state = .idle) (m : SensorModel) (p : Pin) :
    lineInv (acceptRead m p s) = true := by
  obtain ⟨hwf, -, -, -, honly⟩ := lineInv_iff.1 h
  have hnone : ∀ e ∈ s.lines, e.2.dir ≠ some .output := fun e he hdir => by
    simpa [drivesLine, hq] using (onlyDriven_iff.1 honly e he hdir).1
  exact lineInv_iff.2 ⟨hwf, nofun, nofun, rfl, onlyDriven_iff.2 fun e he hdir => absurd hdir (hnone e he)⟩

/-- A pin that has been released is not driven. -/
theorem not_drivesLine_of_releasedLine {s : State} (h : releasedLine s = true) : drivesLine s = false := by
  cases hq : s.state <;> simp only [releasedLine, hq, Bool.false_eq_true] at h <;> simp only [drivesLine, hq]

theorem releasedLine_of_isCaptureState {s : State} (h : isCaptureState s.state = true) : releasedLine s = true := by
  cases hq : s.state <;> simp only [hq, isCaptureState, Bool.false_eq_true] at h <;> simp only [releasedLine, hq]

/-- After the release nothing drives the line for the rest of the attempt (R224). -/
theorem lineInv_of_released {s t : State} (h : lineInv s = true) (hs : releasedLine s = true) (hl : t.lines = s.lines)
    (hp : t.pin = s.pin) (ht : releasedLine t = true) (hv : levelEstablished t = true) : lineInv t = true :=
  lineInv_of_same_lines h hl hp
    ((not_drivesLine_of_releasedLine ht).trans (not_drivesLine_of_releasedLine hs).symm) (fun _ => hs) fun _ => hv

/-! ## The invariant under the two step kinds of a command state -/

theorem lineInv_issued {s : State} {c : Instr} (h : lineInv s = true) (hc : commandOf s = some c) :
    lineInv (issued c s) = true := by
  obtain ⟨-, hout, -, hlev, -⟩ := lineInv_iff.1 h
  cases hq : s.state <;> simp only [commandOf, hq, Option.some.injEq, reduceCtorEq] at hc <;> subst hc
  case hsDirOut =>
    exact lineInv_of_write h rfl rfl (by simp [issued, drivesLine, hq]) (by simp [issued, releasedLine, hq])
      (by simp [issued, levelEstablished, hq])
  case hsDriveHigh | hsDriveLow =>
    have hdir : (s.line s.pin).dir = some .output := hout (by simp only [drivesLine, hq])
    exact lineInv_of_write h rfl rfl (by simp [issued, drivesLine, hq, hdir]) (by simp [issued, releasedLine, hq])
      (by simp [issued, levelEstablished, hq])
  case hsRelease =>
    have hlow : (s.line s.pin).out = some .low := by simpa [levelEstablished, hq] using hlev
    refine lineInv_of_write h rfl rfl (by simp [issued, drivesLine, hq]) (by simp [issued, releasedLine, hq]) fun hline => ?_
    simp only [levelEstablished, issued, issueSetDir_state, hq]
    exact decide_eq_true (hline ▸ hlow)
  all_goals
    refine lineInv_of_same_lines h rfl rfl (by simp [issued, drivesLine, hq]) (by simp [issued, releasedLine, hq]) ?_
    simp only [levelEstablished, issued, issueWaitEdge_state, issueSleepUs_state, issueSleepMs_state, hq]
    exact id

theorem lineInv_responded {r : Response} {s t : State} (h : lineInv s = true) (hr : Responded r s t) : lineInv t = true := by
  obtain ⟨-, hout, -, hlev, -⟩ := lineInv_iff.1 h
  cases hr with
  | hsDirOut hq _ ht =>
    subst ht
    exact lineInv_of_write h rfl rfl (iff_of_true rfl rfl) nofun fun _ => rfl
  | hsDriveHigh hq _ ht | hsDriveLow hq _ ht =>
    subst ht
    have hdir : (s.line s.pin).dir = some .output := hout (by simp only [drivesLine, hq])
    refine lineInv_of_write h rfl rfl (iff_of_true rfl hdir) nofun fun hline => ?_
    exact decide_eq_true (by rw [hline]; exact if_pos hdir)
  | hsRelease hq _ ht =>
    subst ht
    exact lineInv_of_write h rfl rfl (iff_of_false nofun nofun) (fun _ => rfl) fun _ => rfl
  | hsIdleHold hq _ ht | hsLowHold hq _ ht =>
    subst ht
    simp only [levelEstablished, hq] at hlev
    exact lineInv_of_same_lines h rfl rfl (by simp [drivesLine, hq]) nofun fun _ => hlev
  | retryDelay hq _ ht =>
    subst ht
    exact lineInv_of_same_lines h rfl rfl (by simp [drivesLine, hq]) nofun fun _ => rfl
  | hsSettle hq _ ht | lead _ _ hq _ ht | ackLow _ hq _ ht | ackHigh _ hq _ ht | bitLow _ hq _ ht =>
    subst ht
    exact lineInv_of_released h (by simp only [releasedLine, hq]) rfl rfl rfl rfl
  | bitHigh d hq _ ht =>
    have hafter : t.state = .check ∨ t.state = .capBitLow := ht ▸ ite_eq_or_eq _ _ _
    refine lineInv_of_released h (by simp only [releasedLine, hq]) (ht ▸ rfl) (ht ▸ rfl) ?_ ?_ <;>
      obtain hafter | hafter := hafter <;> simp only [releasedLine, levelEstablished, hafter]
  | wrongLevel _ _ hq _ ht =>
    subst ht
    exact lineInv_of_released h (releasedLine_of_isCaptureState (isCaptureState_of_wrongLevel hq)) rfl rfl rfl rfl
  | timeout hq _ ht =>
    subst ht
    exact lineInv_of_released h (releasedLine_of_isCaptureState hq) rfl rfl rfl rfl

/-- Settles O51: only an issue and a response write the line, always `PIN`'s; the other steps of a read either come before
`HS_DIR_OUT` or after the release, and an accept finds no pin driven. The premise on `PEND` is not needed. -/
theorem lineInvariantKept : Obligations.LineInvariantKept := by
  intro s t _ h hst
  obtain ⟨-, htr⟩ := step_cases hst
  cases htr with
  | idleWait _ _ ht | wait _ _ _ ht => exact ht ▸ h
  | accept w rest m p hq _ _ ht => exact ht ▸ lineInv_acceptRead (s := { s with hcmd := rest }) h hq m p
  | issue c hc _ ht => exact ht ▸ lineInv_issued h hc
  | respond w rest r _ _ _ _ hr => exact lineInv_responded (s := { s with crsp := rest }) h hr
  | start hq ht | reading hq _ ht | readError hq _ _ ht =>
    subst ht
    exact lineInv_of_same_lines h rfl rfl (by simp [drivesLine, hq]) nofun fun _ => rfl
  | checkOk hq _ ht | checkFail hq _ ht | convert hq ht | gateOk hq _ _ ht | gateFail hq _ ht | retry hq _ _ ht =>
    subst ht
    exact lineInv_of_released h (by simp only [releasedLine, hq]) rfl rfl rfl rfl

end Sys2Proof.Machine

/-! SUPPORT. Whatever the inversion `step_cases` names, a step does: the other direction (spec/00_scope.md R12). -/

namespace Sys2Proof.Machine

theorem respondIn_of_responded {r : Response} {s t : State} (h : Responded r s t) : respondIn r s = .next t := by
  cases h with
  | hsDirOut hq hr ht | hsDriveHigh hq hr ht | hsIdleHold hq hr ht | hsDriveLow hq hr ht | hsLowHold hq hr ht
  | hsRelease hq hr ht | hsSettle hq hr ht | retryDelay hq hr ht | lead _ _ hq hr ht | ackLow _ hq hr ht | ackHigh _ hq hr ht
  | bitLow _ hq hr ht | bitHigh _ hq hr ht =>
    subst hr ht
    simp only [respondIn, hq]
    rfl
  | wrongLevel l d hq hr ht =>
    subst hr ht
    obtain ⟨hq, rfl⟩ | ⟨hq, rfl⟩ | ⟨hq, rfl⟩ | ⟨hq, rfl⟩ := hq <;> simp only [respondIn, hq] <;> rfl
  | timeout hq hr ht =>
    subst hr ht
    cases hs : s.state <;> simp only [hs, isCaptureState, Bool.false_eq_true] at hq <;> simp only [respondIn, hs] <;> rfl

theorem step_of_transition {s t : State} (hwf : s.cfg.wf = true) (h : Transition s t) : step s = .next t := by
  cases h with
  | idleWait hq hw ht => exact (step_idleWait hwf hq hw).trans (congrArg _ ht.symm)
  | accept w rest m p hq hw hd ht => exact ht ▸ step_accept hwf hq hw hd
  | issue c hc hp ht => exact ht ▸ step_issue hwf hp hc
  | wait hq hp hr ht =>
    obtain ⟨c, hc⟩ := commandOf_of_isCommandState hq
    rw [step_command hwf hc, if_pos hp, respondWith_waits hr, ht]
  | respond w rest r hq hp hr hd ht => exact (step_respond hwf hq hp hr hd).trans (respondIn_of_responded ht)
  | start hq ht | convert hq ht => exact ht ▸ step_of_state hwf hq
  | checkOk hq hk ht => exact ht ▸ (step_of_state hwf hq).trans (if_pos hk)
  | checkFail hq hk ht => exact ht ▸ (step_of_state hwf hq).trans (if_neg (Bool.eq_false_iff.1 hk))
  | gateOk hq hh hk ht => exact ht ▸ (step_of_state hwf hq).trans (if_pos (Bool.and_eq_true_iff.2 ⟨hh, hk⟩))
  | gateFail hq hk ht => exact ht ▸ (step_of_state hwf hq).trans (if_neg (Bool.eq_false_iff.1 (Bool.and_eq_false_iff.2 hk)))
  | reading hq hk ht => exact ht ▸ step_reading hwf hq hk
  | readError hq hk ha ht => exact ht ▸ step_readError hwf hq hk ha
  | retry hq hk ha ht => exact ht ▸ (step_of_state hwf hq).trans ((if_neg hk).trans (if_neg ha))

end Sys2Proof.Machine

/-! SUPPORT. What is not live is never observed (spec/10_state.md R41, R43). -/

namespace Sys2Proof.Machine

/-! ## Agreement, by the registers that are live -/

/-- What two agreeing states share in every state. -/
def SharedAgree (s t : State) : Prop :=
  s.state = t.state ∧ s.pend = t.pend ∧ s.cfg = t.cfg ∧ s.rs = t.rs ∧ s.resHum = t.resHum ∧ s.resTemp = t.resTemp
    ∧ s.hcmd = t.hcmd ∧ s.crsp = t.crsp ∧ s.ccmd = t.ccmd

/-- What they share beside that while a read runs. -/
def OperandsAgree (s t : State) : Prop := s.model = t.model ∧ s.pin = t.pin ∧ s.attempts = t.attempts

/-- The states in which `SR` and `BITCNT` are live. -/
def frameLive (q : SeqState) : Bool :=
  (isCommandState q && decide (q ≠ .retryDelay)) || decide (q = .check) || decide (q = .convert)

section Agree

variable {s t : State}

theorem sharedAgree_of_liveAgree (h : liveAgree s t = true) : SharedAgree s t := by
  simp only [liveAgree, Bool.and_eq_true, decide_eq_true_eq] at h
  exact h.1

theorem operandsAgree_of_liveAgree (h : liveAgree s t = true) (hq : s.state ≠ .idle) : OperandsAgree s t := by
  cases hs : s.state <;> simp only [liveAgree, hs, Bool.and_eq_true, decide_eq_true_eq] at h
  case idle => exact absurd hs hq
  case attStart | retryDelay => exact h.2
  all_goals
    obtain ⟨-, hm, hp, ha, -⟩ := h
    exact ⟨hm, hp, ha⟩

theorem liveAgree_iff_of_frameLive (hq : frameLive s.state = true) : liveAgree s t = true ↔
    SharedAgree s t ∧ OperandsAgree s t ∧ s.sr = t.sr ∧ s.bitcnt = t.bitcnt := by
  cases hs : s.state <;> rw [hs] at hq <;> cases hq
  all_goals simp only [liveAgree, hs, SharedAgree, OperandsAgree, Bool.and_eq_true, decide_eq_true_eq, and_assoc]

theorem liveAgree_iff_of_gate (hq : s.state = .gate) : liveAgree s t = true ↔
    SharedAgree s t ∧ OperandsAgree s t ∧ s.humF = t.humF ∧ s.tempF = t.tempF := by
  simp only [liveAgree, hq, SharedAgree, OperandsAgree, Bool.and_eq_true, decide_eq_true_eq, and_assoc]

theorem liveAgree_iff_of_attDone (hq : s.state = .attDone) : liveAgree s t = true ↔
    SharedAgree s t ∧ OperandsAgree s t ∧ s.attRes = t.attRes ∧ (s.attRes = .success → s.humF = t.humF ∧ s.tempF = t.tempF) := by
  simp only [liveAgree, hq, SharedAgree, OperandsAgree, Bool.and_eq_true, decide_eq_true_eq, and_assoc]

theorem liveAgree_iff_of_start (hq : s.state = .attStart ∨ s.state = .retryDelay) : liveAgree s t = true ↔
    SharedAgree s t ∧ OperandsAgree s t := by
  obtain hq | hq := hq <;>
    simp only [liveAgree, hq, SharedAgree, OperandsAgree, Bool.and_eq_true, decide_eq_true_eq, and_assoc]

theorem liveAgree_iff_of_idle (hq : s.state = .idle) : liveAgree s t = true ↔ SharedAgree s t := by
  simp only [liveAgree, hq, SharedAgree, Bool.and_true, decide_eq_true_eq]

/-! ## Agreement under the shared operations -/

/-- A response moves two agreeing states on to the same state; neither the trace nor the line needs to agree. -/
theorem liveAgree_advance {q : SeqState} (h : liveAgree s t = true) (hq : frameLive s.state = true)
    (hq' : frameLive q = true) (a b : List Segment) (k l : List (Nat × Line)) :
    liveAgree { s with pend := false, state := q, trace := a, lines := k }
      { t with pend := false, state := q, trace := b, lines := l } = true := by
  obtain ⟨⟨-, -, hshared⟩, hframe⟩ := (liveAgree_iff_of_frameLive hq).1 h
  exact (liveAgree_iff_of_frameLive hq').2 ⟨⟨rfl, rfl, hshared⟩, hframe⟩

/-- Two attempts that fail in the same way agree (R194). -/
theorem liveAgree_attemptFail {k : AttRes} (hk : k ≠ .success) (hs : SharedAgree s t) (ho : OperandsAgree s t) :
    liveAgree (attemptFail k s) (attemptFail k t) = true := by
  obtain ⟨-, hshared⟩ := hs
  exact (liveAgree_iff_of_attDone rfl).2 ⟨⟨rfl, hshared⟩, ho, rfl, fun he => absurd he hk⟩

theorem liveAgree_captureTimeout (h : liveAgree s t = true) (hq : s.state ≠ .idle) (a b : List Segment) :
    liveAgree (captureTimeout { s with trace := a }) (captureTimeout { t with trace := b }) = true := by
  obtain ⟨hstate, -, hshared⟩ := sharedAgree_of_liveAgree h
  have hops : OperandsAgree s t := operandsAgree_of_liveAgree h hq
  exact liveAgree_attemptFail (s := { s with trace := a, pend := false }) (t := { t with trace := b, pend := false }) nofun
    ⟨hstate, rfl, hshared⟩ hops

/-- A shift ends in a state in which the frame is live. -/
theorem frameLive_afterBit (n : BitVec 6) : frameLive (afterBit n) = true := by
  unfold afterBit
  split <;> rfl

/-- A bit shifted in depends on the frame, the model and the configuration alone (R138 to R140). -/
theorem liveAgree_shiftBit (h : liveAgree s t = true) (hq : frameLive s.state = true) (d : Dur) (a b : List Segment) :
    liveAgree (shiftBit d { s with pend := false, trace := a }) (shiftBit d { t with pend := false, trace := b }) = true := by
  obtain ⟨⟨-, -, hcfg, hshared⟩, ⟨hmodel, hops⟩, hsr, hbit⟩ := (liveAgree_iff_of_frameLive hq).1 h
  refine (liveAgree_iff_of_frameLive (frameLive_afterBit _)).2
    ⟨⟨?_, rfl, hcfg, hshared⟩, ⟨hmodel, hops⟩, ?_, ?_⟩
  · simp only [shiftBit_state, hbit]
  · simp only [shiftBit_sr, hsr, hcfg, hmodel]
  · simp only [shiftBit_bitcnt, hbit]

theorem frameTenths_congr (hcfg : s.cfg = t.cfg) (hmodel : s.model = t.model) (hsr : s.sr = t.sr) :
    frameTenths s = frameTenths t := by
  simp only [frameTenths, hcfg, hmodel, hsr]

/-- Agreeing states issue the same command (R23). -/
theorem commandOf_of_liveAgree {c : Instr} (h : liveAgree s t = true) (hc : commandOf s = some c) : commandOf t = some c := by
  obtain ⟨hstate, -, hcfg, -⟩ := sharedAgree_of_liveAgree h
  obtain ⟨hmodel, hpin, -⟩ := operandsAgree_of_liveAgree h (ne_idle_of_isCommandState (isCommandState_of_commandOf hc))
  simpa only [commandOf, hstate, hcfg, hmodel, hpin] using hc

theorem liveAgree_issued {c : Instr} (h : liveAgree s t = true) (hc : commandOf s = some c) :
    liveAgree (issued c s) (issued c t) = true := by
  rw [issued_frame hc, issued_frame (commandOf_of_liveAgree h hc)]
  simp only [liveAgree, Bool.and_eq_true, decide_eq_true_eq] at h ⊢
  obtain ⟨⟨hstate, -, hcfg, hrs, hhum, htemp, hhcmd, hcrsp, hccmd⟩, hlive⟩ := h
  exact ⟨⟨hstate, trivial, hcfg, hrs, hhum, htemp, hhcmd, hcrsp, hccmd ▸ rfl⟩, hlive⟩

/-- The same word leaves CRSP in both. -/
theorem liveAgree_crsp (h : liveAgree s t = true) (rest : List Word) :
    liveAgree { s with crsp := rest } { t with crsp := rest } = true := by
  simp only [liveAgree, Bool.and_eq_true, decide_eq_true_eq] at h ⊢
  obtain ⟨⟨hstate, hpend, hcfg, hrs, hhum, htemp, hhcmd, -, hccmd⟩, hlive⟩ := h
  exact ⟨⟨hstate, hpend, hcfg, hrs, hhum, htemp, hhcmd, trivial, hccmd⟩, hlive⟩

end Agree

/-! ## Agreement under the steps -/

/-- The response that one of two agreeing states consumes, the other consumes with the same effect on what is live. -/
theorem responded_of_liveAgree {r : Response} {s t s' : State} (h : liveAgree s t = true) (hr : Responded r s s') :
    ∃ t', Responded r t t' ∧ liveAgree s' t' = true := by
  have hst : s.state = t.state := (sharedAgree_of_liveAgree h).1
  cases hr with
  | hsDirOut hq hr ht => exact ⟨_, .hsDirOut (hst ▸ hq) hr rfl, ht ▸ liveAgree_advance h (hq ▸ rfl) rfl _ _ _ _⟩
  | hsDriveHigh hq hr ht => exact ⟨_, .hsDriveHigh (hst ▸ hq) hr rfl, ht ▸ liveAgree_advance h (hq ▸ rfl) rfl _ _ _ _⟩
  | hsIdleHold hq hr ht => exact ⟨_, .hsIdleHold (hst ▸ hq) hr rfl, ht ▸ liveAgree_advance h (hq ▸ rfl) rfl _ _ _ _⟩
  | hsDriveLow hq hr ht => exact ⟨_, .hsDriveLow (hst ▸ hq) hr rfl, ht ▸ liveAgree_advance h (hq ▸ rfl) rfl _ _ _ _⟩
  | hsLowHold hq hr ht => exact ⟨_, .hsLowHold (hst ▸ hq) hr rfl, ht ▸ liveAgree_advance h (hq ▸ rfl) rfl _ _ _ _⟩
  | hsRelease hq hr ht => exact ⟨_, .hsRelease (hst ▸ hq) hr rfl, ht ▸ liveAgree_advance h (hq ▸ rfl) rfl _ _ _ _⟩
  | hsSettle hq hr ht => exact ⟨_, .hsSettle (hst ▸ hq) hr rfl, ht ▸ liveAgree_advance h (hq ▸ rfl) rfl _ _ _ _⟩
  | lead l d hq hr ht => exact ⟨_, .lead l d (hst ▸ hq) hr rfl, ht ▸ liveAgree_advance h (hq ▸ rfl) rfl _ _ _ _⟩
  | ackLow d hq hr ht => exact ⟨_, .ackLow d (hst ▸ hq) hr rfl, ht ▸ liveAgree_advance h (hq ▸ rfl) rfl _ _ _ _⟩
  | ackHigh d hq hr ht => exact ⟨_, .ackHigh d (hst ▸ hq) hr rfl, ht ▸ liveAgree_advance h (hq ▸ rfl) rfl _ _ _ _⟩
  | bitLow d hq hr ht => exact ⟨_, .bitLow d (hst ▸ hq) hr rfl, ht ▸ liveAgree_advance h (hq ▸ rfl) rfl _ _ _ _⟩
  | bitHigh d hq hr ht => exact ⟨_, .bitHigh d (hst ▸ hq) hr rfl, ht ▸ liveAgree_shiftBit h (hq ▸ rfl) d _ _⟩
  | wrongLevel l d hq hr ht =>
    have hbusy : s.state ≠ .idle := ne_idle_of_isCaptureState (isCaptureState_of_wrongLevel hq)
    exact ⟨_, .wrongLevel l d (hst ▸ hq) hr rfl, ht ▸ liveAgree_captureTimeout h hbusy _ _⟩
  | timeout hq hr ht =>
    have hbusy : s.state ≠ .idle := ne_idle_of_isCaptureState hq
    exact ⟨_, .timeout (hst ▸ hq) hr rfl, ht ▸ liveAgree_captureTimeout h hbusy s.trace t.trace⟩
  | retryDelay hq hr ht =>
    obtain ⟨⟨-, -, hshared⟩, hops⟩ := (liveAgree_iff_of_start (.inr hq)).1 h
    exact ⟨_, .retryDelay (hst ▸ hq) hr rfl, ht ▸ (liveAgree_iff_of_start (.inl rfl)).2 ⟨⟨rfl, rfl, hshared⟩, hops⟩⟩

/-- What one of two agreeing states does, the other does with the same effect on what is live. -/
theorem transition_of_liveAgree {s t s' : State} (h : liveAgree s t = true) (htr : Transition s s') :
    ∃ t', Transition t t' ∧ liveAgree s' t' = true := by
  obtain ⟨hst, hshared⟩ := sharedAgree_of_liveAgree h
  have ⟨hpend, hcfg, _, _, _, hhcmd, hcrsp, hccmd⟩ := hshared
  have hops : s.state ≠ .idle → OperandsAgree s t := operandsAgree_of_liveAgree h
  cases htr with
  | idleWait hq hw ht => exact ⟨t, .idleWait (hst ▸ hq) (hhcmd ▸ hw) rfl, ht ▸ h⟩
  | accept w rest m p hq hw hd ht =>
    exact ⟨_, .accept w rest m p (hst ▸ hq) (hhcmd ▸ hw) (hcfg ▸ hd) rfl,
      ht ▸ (liveAgree_iff_of_start (.inl rfl)).2 ⟨⟨rfl, hpend, hcfg, rfl, rfl, rfl, rfl, hcrsp, hccmd⟩, rfl, rfl, rfl⟩⟩
  | start hq ht =>
    obtain ⟨hmodel, hpin, hatt⟩ := hops (by simp [hq])
    exact ⟨_, .start (hst ▸ hq) rfl, ht ▸ (liveAgree_iff_of_frameLive rfl).2
      ⟨⟨rfl, hshared⟩, ⟨hmodel, hpin, congrArg (· + 1) hatt⟩, rfl, rfl⟩⟩
  | issue c hc hp ht =>
    exact ⟨_, .issue c (commandOf_of_liveAgree h hc) (hpend ▸ hp) rfl, ht ▸ liveAgree_issued h hc⟩
  | wait hq hp hr ht => exact ⟨t, .wait (hst ▸ hq) (hpend ▸ hp) (hcrsp ▸ hr) rfl, ht ▸ h⟩
  | respond w rest r hq hp hr hd hresp =>
    obtain ⟨t', hresp', hagree⟩ := responded_of_liveAgree (liveAgree_crsp h rest) hresp
    exact ⟨t', .respond w rest r (hst ▸ hq) (hpend ▸ hp) (hcrsp ▸ hr) (hcfg ▸ hd) hresp', hagree⟩
  | checkOk hq hk ht =>
    obtain ⟨-, -, hsr, hbit⟩ := (liveAgree_iff_of_frameLive (hq ▸ rfl)).1 h
    have hk' : ckOk t = true := by rwa [ckOk, ← hsr]
    exact ⟨_, .checkOk (hst ▸ hq) hk' rfl, ht ▸ (liveAgree_iff_of_frameLive rfl).2
      ⟨⟨rfl, hshared⟩, hops (by simp [hq]), hsr, hbit⟩⟩
  | checkFail hq hk ht =>
    obtain ⟨hs, hops, hsr, -⟩ := (liveAgree_iff_of_frameLive (hq ▸ rfl)).1 h
    have hk' : ckOk t = false := by rwa [ckOk, ← hsr]
    exact ⟨_, .checkFail (hst ▸ hq) hk' rfl, ht ▸ liveAgree_attemptFail nofun hs hops⟩
  | convert hq ht =>
    obtain ⟨-, hops, hsr, -⟩ := (liveAgree_iff_of_frameLive (hq ▸ rfl)).1 h
    have htenths : frameTenths s = frameTenths t := frameTenths_congr hcfg hops.1 hsr
    exact ⟨_, .convert (hst ▸ hq) rfl, ht ▸ (liveAgree_iff_of_gate rfl).2
      ⟨⟨rfl, hshared⟩, hops, by simp only [hcfg, htenths], by simp only [hcfg, htenths]⟩⟩
  | gateOk hq hh hk ht =>
    obtain ⟨-, hops, hfh, hft⟩ := (liveAgree_iff_of_gate hq).1 h
    have hh' : hOk t = true := by rwa [hOk, ← hfh]
    have hk' : tOk t = true := by rwa [tOk, ← hft]
    exact ⟨_, .gateOk (hst ▸ hq) hh' hk' rfl, ht ▸ (liveAgree_iff_of_attDone rfl).2
      ⟨⟨rfl, hshared⟩, hops, rfl, fun _ => ⟨hfh, hft⟩⟩⟩
  | gateFail hq hk ht =>
    obtain ⟨hs, hops, hfh, hft⟩ := (liveAgree_iff_of_gate hq).1 h
    have hk' : hOk t = false ∨ tOk t = false := by rwa [hOk, tOk, ← hfh, ← hft]
    exact ⟨_, .gateFail (hst ▸ hq) hk' rfl, ht ▸ liveAgree_attemptFail nofun hs hops⟩
  | reading hq hk ht =>
    obtain ⟨-, -, hres, hfloats⟩ := (liveAgree_iff_of_attDone hq).1 h
    obtain ⟨hfh, hft⟩ := hfloats hk
    exact ⟨_, .reading (hst ▸ hq) (hres ▸ hk) rfl, ht ▸ (liveAgree_iff_of_idle rfl).2
      ⟨rfl, hpend, hcfg, rfl, congrArg some hfh, congrArg some hft, hhcmd, hcrsp, hccmd⟩⟩
  | readError hq hk ha ht =>
    obtain ⟨-, ⟨-, -, hatt⟩, hres, -⟩ := (liveAgree_iff_of_attDone hq).1 h
    refine ⟨_, .readError (hst ▸ hq) (hres ▸ hk) (hatt ▸ hcfg ▸ ha) rfl, ht ▸ (liveAgree_iff_of_idle rfl).2
      ⟨rfl, hpend, hcfg, ?_, rfl, rfl, hhcmd, hcrsp, hccmd⟩⟩
    simp only [publishReadError_rs, hres, hatt]
  | retry hq hk ha ht =>
    obtain ⟨-, hops, hres, -⟩ := (liveAgree_iff_of_attDone hq).1 h
    exact ⟨_, .retry (hst ▸ hq) (hres ▸ hk) (hops.2.2 ▸ hcfg ▸ ha) rfl, ht ▸ (liveAgree_iff_of_start (.inr rfl)).2
      ⟨⟨rfl, hshared⟩, hops⟩⟩

/-- Settles O52: the transition of the one state is matched by the other, and a transition on a legal configuration is a step. -/
theorem onlyLiveStateMatters : Obligations.OnlyLiveStateMatters := by
  intro s s' t h hst
  obtain ⟨hwf, htr⟩ := step_cases hst
  obtain ⟨t', htr', hagree⟩ := transition_of_liveAgree h htr
  obtain ⟨-, -, hcfg, -⟩ := sharedAgree_of_liveAgree h
  exact ⟨t', step_of_transition (hcfg ▸ hwf) htr', hagree⟩

end Sys2Proof.Machine

/-! SUPPORT. One command outstanding (spec/00_scope.md R12, spec/10_state.md R22, R23, spec/20_memory.md R61). -/

namespace Sys2Proof.Machine

/-- A `respond` step issues nothing (R12). -/
theorem responded_ccmd {r : Response} {s t : State} (h : Responded r s t) : t.ccmd = s.ccmd := by
  rw [responded_frame h]

/-- Settles O43: an issue is the first alternative; a response clears `PEND` and leaves CCMD, every other step leaves both. -/
theorem oneCommandOutstanding : Obligations.OneCommandOutstanding := by
  intro s t hst
  obtain ⟨-, htr⟩ := step_cases hst
  cases htr with
  | issue c hc hp ht =>
    rw [ht, issued_frame hc]
    exact .inl ⟨hp, rfl, c, hc, rfl, rfl⟩
  | respond w rest r _ _ _ _ hr =>
    exact .inr ⟨responded_ccmd (s := { s with crsp := rest }) hr, fun _ => responded_not_pend hr⟩
  | _ =>
    subst_vars
    exact .inr ⟨rfl, id⟩

end Sys2Proof.Machine

/-! SUPPORT. Who writes the line space (spec/20_memory.md R52, spec/41_handshake.md R118 to R121, spec/70_reset_and_hazards.md R224). -/

namespace Sys2Proof.Machine

/-- The states that command the line: those that issue a SET_DIR or a WRITE (R23). -/
def lineStates : List SeqState := [.hsDirOut, .hsDriveHigh, .hsDriveLow, .hsRelease]

/-- What happens to the line space from `s` to `t` when nothing but `PIN`'s line is written, and that only in a state that commands it. -/
def OwnedLineWrite (s t : State) : Prop :=
  t.lines = s.lines ∨ (s.state ∈ lineStates ∧ ∃ v, t.lines = (s.setLine s.pin v).lines)

/-- The issue of a SET_DIR or a WRITE puts `PIN`'s line in transit, the other commands leave the line alone (R118 to R121, R130). -/
theorem issued_ownedLineWrite {s : State} {c : Instr} (h : commandOf s = some c) : OwnedLineWrite s (issued c s) := by
  cases hq : s.state <;> simp only [commandOf, hq, Option.some.injEq, reduceCtorEq] at h <;> subst h
  case hsDirOut | hsDriveHigh | hsDriveLow | hsRelease => exact .inr ⟨by rw [hq]; decide, _, rfl⟩
  all_goals exact .inl rfl

/-- The ACK of a SET_DIR or a WRITE settles `PIN`'s line, the other responses leave the line alone (R118, R119, R122). -/
theorem responded_ownedLineWrite {r : Response} {s t : State} (h : Responded r s t) : OwnedLineWrite s t := by
  cases h with
  | hsDirOut hq _ ht | hsDriveHigh hq _ ht | hsDriveLow hq _ ht | hsRelease hq _ ht =>
    subst ht
    exact .inr ⟨by rw [hq]; decide, _, rfl⟩
  | _ =>
    subst_vars
    exact .inl rfl

theorem step_ownedLineWrite {s t : State} (h : step s = .next t) : OwnedLineWrite s t := by
  obtain ⟨-, htr⟩ := step_cases h
  cases htr with
  | issue c hc _ ht => exact ht ▸ issued_ownedLineWrite hc
  | respond w rest r _ _ _ _ hr => exact responded_ownedLineWrite (s := { s with crsp := rest }) hr
  | _ =>
    subst_vars
    exact .inl rfl

/-- A write of `PIN`'s line is not seen at another pin (R52). -/
theorem line_other_of_ownedLineWrite {s t : State} (h : OwnedLineWrite s t) {q : Pin} (hq : q ≠ s.pin) :
    t.line q = s.line q := by
  obtain hl | ⟨-, v, hl⟩ := h
  · exact line_congr hl q
  · exact (line_congr hl q).trans (line_setLine_other s hq v)

/-- Settles O45: every step is at most a write of `PIN`'s line in a state that commands it. -/
theorem onlyTheOwnedLineChanges : Obligations.OnlyTheOwnedLineChanges := by
  intro s t hst
  have hown : OwnedLineWrite s t := step_ownedLineWrite hst
  exact ⟨fun _ => line_other_of_ownedLineWrite hown, fun hq => hown.resolve_right fun ⟨hmem, _⟩ => hq hmem⟩

end Sys2Proof.Machine

/-! SUPPORT. The decoder and the encoder are inverse to each other, port by port (spec/30_encoding.md R71 to R80, R85, R86). -/

namespace Sys2Proof.Laws

/-! ## From the operation to its word and back -/

/-- What stands on HCMD is a READ (R71). -/
theorem decode_hcmd_encode {i : Instr} (h : portOf i = .hcmd) : decode .hcmd (encode i) = .ok i := by
  cases i with
  | read m p => exact EncodeDecode.read m p
  | _ => cases h

/-- What stands on RESULT is one of the two results (R75). -/
theorem decode_result_encode {i : Instr} (h : portOf i = .result) : decode .result (encode i) = .ok i := by
  cases i with
  | resultReading => exact EncodeDecode.resultReading
  | resultReadError k n => exact EncodeDecode.resultReadError k n
  | _ => cases h

/-- What stands on CRSP is one of the three responses (R73). -/
theorem decode_crsp_encode {i : Instr} (h : portOf i = .crsp) : decode .crsp (encode i) = .ok i := by
  cases i with
  | ack => exact EncodeDecode.ack
  | edge l d => exact EncodeDecode.edge l d
  | timeout => exact EncodeDecode.timeout
  | _ => cases h

/-- The micro-operations stand where `STATE` does (R85). -/
@[simp] theorem portOf_microOp (q : SeqState) : portOf (microOp q) = .ustate := by cases q <;> rfl

/-- The word of a micro-operation is the code of its state (R23). -/
@[simp] theorem encode_microOp (q : SeqState) : encode (microOp q) = ustateWord q := by cases q <;> rfl

/-- What stands where `STATE` does is the micro-operation of some state (R21, R85). -/
theorem exists_microOp_of_portOf {i : Instr} (h : portOf i = .ustate) : ∃ q, i = microOp q := by
  cases i with
  | idle => exact ⟨.idle, rfl⟩
  | attStart => exact ⟨.attStart, rfl⟩
  | hsDirOut => exact ⟨.hsDirOut, rfl⟩
  | hsDriveHigh => exact ⟨.hsDriveHigh, rfl⟩
  | hsIdleHold => exact ⟨.hsIdleHold, rfl⟩
  | hsDriveLow => exact ⟨.hsDriveLow, rfl⟩
  | hsLowHold => exact ⟨.hsLowHold, rfl⟩
  | hsRelease => exact ⟨.hsRelease, rfl⟩
  | hsSettle => exact ⟨.hsSettle, rfl⟩
  | capLead => exact ⟨.capLead, rfl⟩
  | capAckLow => exact ⟨.capAckLow, rfl⟩
  | capAckHigh => exact ⟨.capAckHigh, rfl⟩
  | capBitLow => exact ⟨.capBitLow, rfl⟩
  | capBitHigh => exact ⟨.capBitHigh, rfl⟩
  | check => exact ⟨.check, rfl⟩
  | convert => exact ⟨.convert, rfl⟩
  | gate => exact ⟨.gate, rfl⟩
  | attDone => exact ⟨.attDone, rfl⟩
  | retryDelay => exact ⟨.retryDelay, rfl⟩
  | _ => cases h

theorem decode_ustate_encode {i : Instr} (h : portOf i = .ustate) : decode .ustate (encode i) = .ok i := by
  obtain ⟨q, rfl⟩ := exists_microOp_of_portOf h
  exact (congrArg (decode .ustate) (encode_microOp q)).trans (decode_stateCode q)

/-- Settles O1, port by port: the fields of an encoded word are the operands it was joined from. -/
theorem encodeDecodeAgree : Obligations.EncodeDecodeAgree := by
  intro i
  cases hp : portOf i with
  | hcmd => exact decode_hcmd_encode hp
  | result => exact decode_result_encode hp
  | ccmd => exact Machine.decode_ccmd_encode hp
  | crsp => exact decode_crsp_encode hp
  | ustate => exact decode_ustate_encode hp

/-! ## From the code to its name and back (R76, R78, R80, R23) -/

theorem modelCode_of_modelOfCode {c : BitVec 2} {m : SensorModel} : modelOfCode c = some m → modelCode m = c := by
  revert c
  cases m <;> decide

@[simp] theorem levelBit_levelOfBit (b : BitVec 1) : levelBit (levelOfBit b) = b := by
  revert b
  decide

@[simp] theorem dirBit_dirOfBit (b : BitVec 1) : dirBit (dirOfBit b) = b := by
  revert b
  decide

@[simp] theorem attResCode_attResOfCode (c : BitVec 2) : attResCode (attResOfCode c) = c := by
  revert c
  decide

/-- A code that decodes is the code of the state whose micro-operation it names. -/
theorem decodeUState_ok {c : BitVec 5} {i : Instr} (h : decodeUState c = .ok i) : ∃ q, i = microOp q ∧ stateCode q = c := by
  unfold decodeUState at h
  split at h
  · rename_i q hq
    have hc : decide (stateCode q = c) = true := List.find?_some (p := fun q => decide (stateCode q = c)) hq
    cases h
    exact ⟨q, rfl, of_decide_eq_true hc⟩
  · cases h

/-! ## From the word to its fields and back -/

/-- A field whose value is known, as a number. -/
theorem toNat_field {n : Nat} {v : BitVec n} {hi lo : Nat} {c : BitVec (hi - lo + 1)} (h : bits v hi lo = c) :
    v.toNat / 2 ^ lo % 2 ^ (hi - lo + 1) = c.toNat := by rw [← toNat_bits, h]

/-- An `HC` word with the opcode of READ and no must-be-zero bit set is its fields joined (R71). -/
theorem hcWord_bits {w : Word} {m : SensorModel} (hop : bits w 31 28 = 1) (hz : bits w 27 10 = 0)
    (hm : modelCode m = bits w 9 8) : hcWord m (bits w 7 0) = w := by
  have hop : w.toNat / 2 ^ 28 % 2 ^ 4 = 1 := toNat_field hop
  have hz : w.toNat / 2 ^ 10 % 2 ^ 18 = 0 := toNat_field hz
  have hw : w.toNat < 2 ^ 32 := w.isLt
  apply BitVec.eq_of_toNat_eq
  simp only [hcWord_toNat, hm, toNat_bits]
  omega

/-- An `RS` word with no must-be-zero bit set is its fields joined (R75). -/
theorem rsWord_bits {w : Word} (hz : bits w 29 10 = 0) :
    rsWord (bits w 31 31) (bits w 30 30) (bits w 9 8) (bits w 7 0) = w := by
  have hz : w.toNat / 2 ^ 10 % 2 ^ 20 = 0 := toNat_field hz
  have hw : w.toNat < 2 ^ 32 := w.isLt
  apply BitVec.eq_of_toNat_eq
  simp only [rsWord_toNat, toNat_bits]
  omega

/-- Every `CW` word is its fields joined (R72). -/
theorem cwWord_bits (w : Word) : cwWord (bits w 31 28) (bits w 27 20) (bits w 19 0) = w := by
  have hw : w.toNat < 2 ^ 32 := w.isLt
  apply BitVec.eq_of_toNat_eq
  simp only [cwWord_toNat, toNat_bits]
  omega

/-- A one-bit argument with no must-be-zero bit set is its bit 0 (R72, R80). -/
theorem bitArg_bits {w : Word} (hz : bits w 19 1 = 0) : (0#19 ++ bits w 0 0 : BitVec 20) = bits w 19 0 := by
  have hz : w.toNat / 2 ^ 1 % 2 ^ 19 = 0 := toNat_field hz
  apply BitVec.eq_of_toNat_eq
  simp only [toNat_append_add, toNat_bits, BitVec.toNat_ofNat]
  omega

/-- An `RW` word with none of the bits 29 to 21 set is its fields joined (R73). -/
theorem rwWord_bits {w : Word} (hz : bits w 29 21 = 0) : rwWord (bits w 31 30) (bits w 20 20) (bits w 19 0) = w := by
  have hz : w.toNat / 2 ^ 21 % 2 ^ 9 = 0 := toNat_field hz
  have hw : w.toNat < 2 ^ 32 := w.isLt
  apply BitVec.eq_of_toNat_eq
  simp only [rwWord_toNat, toNat_bits]
  omega

/-- A word with the upper bits zero is its lower bits, zero-extended. -/
theorem ustate_bits {w : Word} (hz : bits w 31 5 = 0) : (0#27 ++ bits w 4 0 : Word) = w := by
  have hz : w.toNat / 2 ^ 5 % 2 ^ 27 = 0 := toNat_field hz
  have hw : w.toNat < 2 ^ 32 := w.isLt
  apply BitVec.eq_of_toNat_eq
  simp only [toNat_append_add, toNat_bits, BitVec.toNat_ofNat]
  omega

/-- A field of low bits that are all zero is zero. -/
theorem bits_eq_zero_of_low {n : Nat} {v : BitVec n} {top hi lo : Nat} (h : bits v top 0 = 0) (hle : lo ≤ hi)
    (htop : hi ≤ top) : bits v hi lo = 0 := by
  refine BitVec.eq_of_getLsbD_eq fun i hi => ?_
  have hlow : (bits v top 0).getLsbD (lo + i) = false := by rw [h]; exact BitVec.getLsbD_zero
  have hin : lo + i < top - 0 + 1 := by omega
  rw [BitVec.getLsbD_extractLsb, decide_eq_true hin, Nat.zero_add, Bool.true_and] at hlow
  rw [BitVec.getLsbD_extractLsb, hlow, Bool.and_false]
  exact BitVec.getLsbD_zero.symm

/-- Of the codes of `RW.KIND` three are given; what is neither 3, 1 nor 0 is 2 (R79). -/
theorem kind_eq_two {k : BitVec 2} : k ≠ 3 → k ≠ 1 → k ≠ 0 → k = 2 := by
  revert k
  decide

/-! ## A word that decodes is the encoding -/

/-- A decoder that tests a condition and rejects goes on only where the condition fails. -/
theorem ite_error_eq_ok {α : Type} {p : Prop} [Decidable p] {e : DecodeError} {x : Except DecodeError α} {a : α} :
    (if p then .error e else x) = .ok a ↔ ¬p ∧ x = .ok a := by
  by_cases hp : p <;> simp [hp]

theorem encode_of_decodeHC {w : Word} {i : Instr} (h : decodeHC w = .ok i) : portOf i = .hcmd ∧ encode i = w := by
  simp only [decodeHC, ite_error_eq_ok, not_not] at h
  obtain ⟨hop, hz, h⟩ := h
  split at h
  · cases h
  · rename_i m hm
    cases h
    exact ⟨rfl, hcWord_bits hop hz (modelCode_of_modelOfCode hm)⟩

theorem encode_of_decodeRS {w : Word} {i : Instr} (h : decodeRS w = .ok i) : portOf i = .result ∧ encode i = w := by
  simp only [decodeRS, ite_error_eq_ok, not_not] at h
  obtain ⟨hvalid, hz, h⟩ := h
  have hw := rsWord_bits hz
  rw [(BitVec.eq_zero_or_eq_one _).resolve_left hvalid] at hw
  split at h
  case isTrue htag =>
    cases h
    rw [(BitVec.eq_zero_or_eq_one _).resolve_left htag, ← attResCode_attResOfCode (bits w 9 8)] at hw
    exact ⟨rfl, hw⟩
  case isFalse htag =>
    obtain ⟨hlow, h⟩ := ite_error_eq_ok.1 h
    cases h
    have hkind : bits w 9 8 = 0 := bits_eq_zero_of_low (not_not.1 hlow) (by decide) (by decide)
    have hmade : bits w 7 0 = 0 := bits_eq_zero_of_low (not_not.1 hlow) (by decide) (by decide)
    rw [not_not.1 htag, hkind, hmade] at hw
    exact ⟨rfl, hw⟩

theorem encode_of_decodeCW {w : Word} {i : Instr} (h : decodeCW w = .ok i) : portOf i = .ccmd ∧ encode i = w := by
  have hw := cwWord_bits w
  unfold decodeCW at h
  split_ifs at h with hdir hz hwrite hz hwait hus hz hms hz <;> cases h
  · -- SET_DIR
    rw [hdir, ← bitArg_bits (not_not.1 hz), ← dirBit_dirOfBit (bits w 0 0)] at hw
    exact ⟨rfl, hw⟩
  · -- WRITE
    rw [hwrite, ← bitArg_bits (not_not.1 hz), ← levelBit_levelOfBit (bits w 0 0)] at hw
    exact ⟨rfl, hw⟩
  · -- WAIT_EDGE
    rw [hwait] at hw
    exact ⟨rfl, hw⟩
  · -- SLEEP_US
    rw [hus, not_not.1 hz] at hw
    exact ⟨rfl, hw⟩
  · -- SLEEP_MS
    rw [hms, not_not.1 hz] at hw
    exact ⟨rfl, hw⟩

/-- A response that a word decodes to has that word (R73). -/
theorem responseWord_of_decodeResponse {w : Word} {r : Response} (h : decodeResponse w = .ok r) : responseWord r = w := by
  simp only [decodeResponse, ite_error_eq_ok, not_not] at h
  obtain ⟨hkind, hz, h⟩ := h
  have hw := rwWord_bits hz
  split at h
  case isTrue hedge =>
    cases h
    rw [hedge, ← levelBit_levelOfBit (bits w 20 20)] at hw
    exact hw
  case isFalse hedge =>
    obtain ⟨hlow, h⟩ := ite_error_eq_ok.1 h
    have hlevel : bits w 20 20 = 0 := bits_eq_zero_of_low (not_not.1 hlow) (by decide) (by decide)
    have helapsed : bits w 19 0 = 0 := bits_eq_zero_of_low (not_not.1 hlow) (by decide) (by decide)
    rw [hlevel, helapsed] at hw
    split at h
    case isTrue hack =>
      cases h
      rw [hack] at hw
      exact hw
    case isFalse hack =>
      cases h
      rw [kind_eq_two hkind hedge hack] at hw
      exact hw

theorem portOf_response (r : Response) : portOf r.instr = .crsp := by cases r <;> rfl

theorem encode_of_decodeRW {w : Word} {i : Instr} (h : decodeRW w = .ok i) : portOf i = .crsp ∧ encode i = w := by
  unfold decodeRW at h
  split at h
  · cases h
  · rename_i r hr
    cases h
    exact ⟨portOf_response r, responseWord_of_decodeResponse hr⟩

theorem encode_of_decode_ustate {w : Word} {i : Instr} (h : decode .ustate w = .ok i) :
    portOf i = .ustate ∧ encode i = w := by
  obtain ⟨hz, h⟩ := ite_error_eq_ok.1 h
  obtain ⟨q, rfl, hq⟩ := decodeUState_ok h
  refine ⟨portOf_microOp q, ?_⟩
  rw [encode_microOp, ustateWord, hq]
  exact ustate_bits (not_not.1 hz)

/-- Settles O2, port by port: every field of a word that decodes is an operand or is fixed. -/
theorem decodedWordIsItsEncoding : Obligations.DecodedWordIsItsEncoding := by
  intro p w i h
  cases p with
  | hcmd => exact encode_of_decodeHC h
  | result => exact encode_of_decodeRS h
  | ccmd => exact encode_of_decodeCW h
  | crsp => exact encode_of_decodeRW h
  | ustate => exact encode_of_decode_ustate h

/-- Settles O3: each word is evaluated by the decoder. -/
theorem writtenWordsDecode : Obligations.WrittenWordsDecode := by
  unfold Obligations.WrittenWordsDecode
  decide

end Sys2Proof.Laws

/-! SUPPORT. What a command state consumes (spec/30_encoding.md R77, R86, spec/60_exceptions.md R205). -/

namespace Sys2Proof.Machine

/-- A response that a state's clause takes is of a kind its command allows (R77). -/
theorem allowedResponse_of_responded {r : Response} {s t : State} (h : Responded r s t) :
    allowedResponse s.state r = true := by
  cases h with
  | wrongLevel l d hq hr => exact hr ▸ isCaptureState_of_wrongLevel hq
  | timeout hq hr => exact hr ▸ hq
  | hsDirOut hq hr | hsDriveHigh hq hr | hsIdleHold hq hr | hsDriveLow hq hr | hsLowHold hq hr | hsRelease hq hr
  | hsSettle hq hr | retryDelay hq hr | lead _ _ hq hr | ackLow _ hq hr | ackHigh _ hq hr | bitLow _ hq hr
  | bitHigh _ hq hr =>
    rw [hq, hr]
    rfl

/-- No state of R23's table is its own successor. -/
theorem not_mem_successors_self (q : SeqState) : q ∉ successors q := by cases q <;> decide

theorem responded_state_ne {r : Response} {s t : State} (h : Responded r s t) : t.state ≠ s.state := by
  have hmem : t.state ∈ successors s.state := responded_successor h
  intro he
  exact not_mem_successors_self s.state (he ▸ hmem)

/-- A `respond` step takes nothing more from CRSP than the word that has left it (R12). -/
theorem responded_crsp {r : Response} {s t : State} (h : Responded r s t) : t.crsp = s.crsp := by
  rw [responded_frame h]

/-- A command state with a response on offer goes on by consuming it, and only if the collaborator keeps its contract (R86, R205). -/
theorem collaboratorReady_of_step {s t : State} (hwf : s.cfg.wf = true) (hq : isCommandState s.state = true)
    (hp : s.pend = true) (hr : s.crsp ≠ []) (h : step s = .next t) : collaboratorReady s = true := by
  obtain ⟨c, hc⟩ := commandOf_of_isCommandState hq
  rw [step_command hwf hc, if_pos hp] at h
  obtain ⟨hnone, -⟩ | ⟨w, rest, r, hw, hd, hk⟩ := respondWith_next h
  · exact absurd hnone hr
  · simp only [collaboratorReady, hp, if_true, hw, hd]
    exact allowedResponse_of_responded (s := { s with crsp := rest }) (respondIn_next hk)

/-- Settles O40: a step needs the contract, and under the contract the state's clause takes the response on offer, clears `PEND` and moves
on to a successor. -/
theorem onlyAllowedResponsesConsumed : Obligations.OnlyAllowedResponsesConsumed := by
  intro s hwf hq hp hr
  constructor
  · intro hnot t hst
    exact Bool.eq_false_iff.1 hnot (collaboratorReady_of_step hwf hq hp hr hst)
  · intro hready
    obtain ⟨w, rest, r, hw, hd, ha⟩ := collaboratorReady_offers hp hready
    obtain ⟨t, ht⟩ := respondIn_allowed_answers (s := { s with crsp := rest }) ha
    have hresp : Responded r { s with crsp := rest } t := respondIn_next ht
    have hrest : t.crsp = rest := responded_crsp hresp
    have hccmd : t.ccmd = s.ccmd := responded_ccmd (s := { s with crsp := rest }) hresp
    have hne : t.state ≠ s.state := responded_state_ne (s := { s with crsp := rest }) hresp
    exact ⟨t, (step_respond hwf hq hp hw hd).trans ht, responded_not_pend hresp, by simp [hw, hrest], hccmd, hne⟩

end Sys2Proof.Machine

/-! SUPPORT. The host's side: what is taken from HCMD, what is published, and what leaves both alone (spec/40_host_interface.md R100 to R103,
R105). -/

namespace Sys2Proof.Machine

/-! ## The host word as a number (R71) -/

/-- The fields of a word that decodes on HCMD, as numbers: the opcode of READ, no must-be-zero bit, a model and a pin number of
`PIN_W` bits. -/
theorem hostWord_number {c : Config} {w : Word} {i : Instr} (h : decodeFor c .hcmd w = .ok i) :
    w.toNat / 2 ^ 28 = 1 ∧ w.toNat / 2 ^ 10 % 2 ^ 18 = 0 ∧ w.toNat / 2 ^ 8 % 4 ≠ 3 ∧ w.toNat % 2 ^ 8 < 2 ^ c.pinW := by
  obtain ⟨m, p, rfl, hfit⟩ := decodeFor_hcmd_ok h
  have hword : hcWord m p = w := (Laws.encode_of_decodeHC (Laws.decodeFor_ok.1 h).1).2
  have hp : p.toNat < 2 ^ 8 := p.isLt
  have hm : (modelCode m).toNat < 3 := by cases m <;> decide
  have hw : w.toNat = 2 ^ 28 + (modelCode m).toNat * 2 ^ 8 + p.toNat := hword ▸ Laws.hcWord_toNat m p
  have hpin : w.toNat % 2 ^ 8 = p.toNat := by omega
  refine ⟨by omega, by omega, by omega, ?_⟩
  rw [hpin]
  exact (Laws.pinFits_iff c p).1 hfit

/-! ## `IDLE` and READ, by what they answer -/

/-- A host word that decodes under the widths is accepted (R100). -/
theorem exec_idle_accept {s : State} {w : Word} {rest : List Word} {m : SensorModel} {p : Pin} (hw : s.hcmd = w :: rest)
    (hd : decodeFor s.cfg .hcmd w = .ok (.read m p)) : exec .idle s = .next (acceptRead m p { s with hcmd := rest }) := by
  simp only [exec, execIdle, hw, hd]

/-- A host word that does not decode under the widths stays on HCMD (R101 (a); log 7, log 16). -/
theorem exec_idle_refused {s : State} {w : Word} {rest : List Word} (hw : s.hcmd = w :: rest)
    (hd : ∀ i, decodeFor s.cfg .hcmd w ≠ .ok i) : exec .idle s = .refused .hostWordNotACommand := by
  simp only [exec, execIdle, hw]
  split
  · rename_i m p hr
    exact absurd hr (hd _)
  · rfl

/-- READ has a next state in `IDLE` only (R101 (b)). -/
theorem exec_read_busy (m : SensorModel) (p : Pin) {s : State} (hq : s.state ≠ .idle) :
    exec (.read m p) s = .refused .hostPortNotReady := if_neg hq

/-- A host word with another opcode, a must-be-zero bit, the reserved model code or a pin number beyond `PIN_W` is refused (R101 (a); log 16). -/
theorem exec_idle_malformed {s : State} {w : Word} {rest : List Word} (hw : s.hcmd = w :: rest)
    (h : w.toNat / 2 ^ 28 ≠ 1 ∨ w.toNat / 2 ^ 10 % 2 ^ 18 ≠ 0 ∨ w.toNat / 2 ^ 8 % 4 = 3 ∨ 2 ^ s.cfg.pinW ≤ w.toNat % 2 ^ 8) :
    exec .idle s = .refused .hostWordNotACommand := by
  refine exec_idle_refused hw fun i hd => ?_
  obtain ⟨hop, hz, hmodel, hpin⟩ := hostWord_number hd
  obtain h | h | h | h := h
  · exact h hop
  · exact h hz
  · exact hmodel h
  · exact Nat.not_lt.2 h hpin

/-! ## The host's words and the operands while a read runs -/

/-- Only the accept step of `IDLE` touches HCMD, `MODEL` and `PIN` (R100, R101 (b)). -/
theorem hostSide_kept_while_busy {s t : State} (hq : s.state ≠ .idle) (h : Transition s t) :
    t.hcmd = s.hcmd ∧ t.model = s.model ∧ t.pin = s.pin := by
  cases h with
  | idleWait hi | accept _ _ _ _ hi => exact absurd hi hq
  | issue c hc _ ht =>
    rw [ht, issued_frame hc]
    exact ⟨rfl, rfl, rfl⟩
  | respond w rest r _ _ _ _ hr =>
    rw [responded_frame hr]
    exact ⟨rfl, rfl, rfl⟩
  | _ =>
    subst_vars
    exact ⟨rfl, rfl, rfl⟩

/-- Settles O5: `IDLE` refuses the malformed word, READ is refused while busy, and no transition of a busy state is an accept. -/
theorem hostWordsNotTaken : Obligations.HostWordsNotTaken := by
  refine ⟨?malformed, ?readBusy, ?frame⟩
  case malformed =>
    intro s t w rest hw h
    have hbad : w.toNat / 2 ^ 28 ≠ 1 ∨ w.toNat / 2 ^ 10 % 2 ^ 18 ≠ 0 ∨ w.toNat / 2 ^ 8 % 4 = 3
        ∨ 2 ^ s.cfg.pinW ≤ w.toNat % 2 ^ 8 := h.imp_right (Or.imp_right Or.inl)
    rw [exec_idle_malformed hw hbad]
    nofun
  case readBusy =>
    intro m p s t hq
    rw [exec_read_busy m p hq]
    nofun
  case frame =>
    intro s t hq hst
    exact hostSide_kept_while_busy hq (step_cases hst).2

/-- Settles O4: both are the accept step, the word on HCMD by the decoder's own equation for READ. -/
theorem readAccepted : Obligations.ReadAccepted := by
  refine ⟨fun m p s hq hp => ?_, fun s m p rest hp hw => ?_⟩
  · exact exec_read m hq ((Laws.pinFits_iff s.cfg p).2 hp)
  · exact exec_idle_accept hw (Laws.decodeFor_read m hp)

/-! ## Publishing -/

/-- `RS` of a READING (R75, R102). -/
theorem encode_resultReading : encode .resultReading = 0x80000000 := by decide

theorem exec_resultReading {s : State} (hq : s.state = .attDone) (hk : s.attRes = .success) :
    exec .resultReading s = .next (publishReading s) := if_pos ⟨hq, hk⟩

theorem exec_resultReadError {s : State} (hq : s.state = .attDone) (hk : s.attRes ≠ .success)
    (ha : s.attempts = s.cfg.attemptCap) (hl : s.lastKind = s.attRes) :
    exec (.resultReadError s.lastKind s.attempts) s = .next (publishReadError s) := if_pos ⟨hq, hk, ha, rfl, hl, rfl⟩

/-- Settles O6: publishing writes the encoder's word, whose bits are 0x80000000. -/
theorem readingPublished : Obligations.ReadingPublished := by
  intro s hq hk
  rw [exec_resultReading hq hk, publishReading, encode_resultReading]

/-- Settles O7: publishing writes the encoder's word, which is the spec's joined with `|` and `<<`. -/
theorem readErrorPublished : Obligations.ReadErrorPublished := by
  intro s hq hk ha hl
  rw [exec_resultReadError hq hk ha hl, Laws.readErrorWord_eq]
  rfl

/-! ## Waiting -/

/-- Settles O41: waiting is a transition of the model, to the same state. -/
theorem waitingChangesNothing : Obligations.WaitingChangesNothing :=
  ⟨fun _ hwf hq hw => step_idleWait hwf hq hw, fun _ hwf hq hp hr => step_of_transition hwf (.wait hq hp hr rfl)⟩

end Sys2Proof.Machine

/-! SUPPORT. Where an operation has no transition, the name under which the model stops (log 6 to 9, 12 and 16). -/

namespace Sys2Proof.Machine

/-! ## Commands out of turn (R12, R23) -/

theorem issuesNow_iff {s : State} {c : Instr} : issuesNow s c = true ↔ s.pend = false ∧ commandOf s = some c := by
  simp [issuesNow]

/-- A command row whose word the current state does not issue now is refused (log 9). -/
theorem exec_command_refused {s : State} {c : Instr} (hport : portOf c = .ccmd)
    (h : s.pend = true ∨ commandOf s ≠ some c) : exec c s = .refused .commandNotIssued := by
  have hnow : ¬issuesNow s c = true := fun hn => by
    obtain ⟨hp, hc⟩ := issuesNow_iff.1 hn
    exact h.elim (Bool.eq_false_iff.1 hp) (absurd hc)
  cases c with
  | setDir _ _ | write _ _ | waitEdge _ _ | sleepUs _ | sleepMs _ => exact if_neg hnow
  | _ => cases hport

/-- Where `SET_DIR` is issued, and with which operands (R23). -/
theorem commandOf_eq_setDir {s : State} {p : Pin} {d : Direction} : commandOf s = some (.setDir p d) ↔
    p = s.pin ∧ ((s.state = .hsDirOut ∧ d = .output) ∨ (s.state = .hsRelease ∧ d = .input)) := by
  cases hq : s.state <;> simp [commandOf, hq, eq_comm]

/-- Where `WRITE` is issued, and with which operands (R23). -/
theorem commandOf_eq_write {s : State} {p : Pin} {l : Level} : commandOf s = some (.write p l) ↔
    p = s.pin ∧ ((s.state = .hsDriveHigh ∧ l = .high) ∨ (s.state = .hsDriveLow ∧ l = .low)) := by
  cases hq : s.state <;> simp [commandOf, hq, eq_comm]

/-- Where `WAIT_EDGE` is issued, and with which operands (R23, R130). -/
theorem commandOf_eq_waitEdge {s : State} {p : Pin} {t : Dur} : commandOf s = some (.waitEdge p t) ↔
    p = s.pin ∧ t = s.cfg.edgeTimeoutUs ∧ isCaptureState s.state = true := by
  cases hq : s.state <;> simp [commandOf, isCaptureState, hq, eq_comm]

/-- Where `SLEEP_US` is issued, and with which operand (R23). -/
theorem commandOf_eq_sleepUs {s : State} {n : Dur} : commandOf s = some (.sleepUs n) ↔
    (s.state = .hsIdleHold ∧ n = s.cfg.tIdleHoldUs) ∨ (s.state = .hsSettle ∧ n = s.cfg.tSettleUs) := by
  cases hq : s.state <;> simp [commandOf, hq, eq_comm]

/-- Where `SLEEP_MS` is issued, and with which operand (R23). -/
theorem commandOf_eq_sleepMs {s : State} {n : Dur} : commandOf s = some (.sleepMs n) ↔
    (s.state = .hsLowHold ∧ n = (s.cfg.record s.model).startHoldMs) ∨ (s.state = .retryDelay ∧ n = s.cfg.retryDelayMs) := by
  cases hq : s.state <;> simp [commandOf, hq, eq_comm]

/-- A WRITE that the state issues now is refused while the pin is in Input mode (R202, U10; log 12). -/
theorem exec_write_inInputMode {s : State} {p : Pin} {l : Level} (hp : s.pend = false) (hc : commandOf s = some (.write p l))
    (hd : (s.line p).dir = some .input) : exec (.write p l) s = .refused .writeInInputMode :=
  (if_pos (issuesNow_of_commandOf hp hc)).trans (if_pos hd)

/-! ## Responses out of turn (R70, R86) -/

/-- CRSP is not ready while no command is outstanding (R70). -/
theorem exec_response_notReady {s : State} (r : Response) (hp : s.pend = false) :
    exec r.instr s = .refused .responsePortNotReady := by
  have hp : ¬s.pend = true := Bool.eq_false_iff.1 hp
  cases r <;> exact if_neg hp

/-- The eight states whose command is completed by ACK (R122). -/
theorem allowedResponse_ack (q : SeqState) : allowedResponse q .ack = true ↔
    q ∈ [SeqState.hsDirOut, .hsDriveHigh, .hsIdleHold, .hsDriveLow, .hsLowHold, .hsRelease, .hsSettle, .retryDelay] := by
  cases q <;> decide

/-- No clause takes a response of a kind the state's command does not allow (R86 (c), U4; log 6). -/
theorem respondIn_unexpected {r : Response} {s : State} (h : allowedResponse s.state r = false) :
    respondIn r s = .fault .unexpectedResponse := by
  unfold respondIn
  cases r with
  | ack =>
    cases hq : s.state <;>
      simp only [hq, allowedResponse, isCommandState, isCaptureState, Bool.not_false, Bool.and_true, Bool.true_eq_false] at h <;>
      rfl
  | edge _ _ | timeout =>
    cases hq : s.state <;> simp only [hq, allowedResponse, isCaptureState, Bool.true_eq_false] at h <;> rfl

theorem exec_response_unexpected {s : State} {r : Response} (hp : s.pend = true) (hf : r.instr.fits s.cfg = true)
    (h : allowedResponse s.state r = false) : exec r.instr s = .fault .unexpectedResponse :=
  (exec_response hp hf).trans (respondIn_unexpected h)

/-! ## Responses on offer (R73, R86 (c)) -/

/-- The fields of a word that decodes on CRSP, as numbers: a kind that is given, no must-be-zero bit, and a duration of `DUR_W`
bits. -/
theorem response_number {c : Config} {w : Word} {r : Response} (h : decodeResponseFor c w = .ok r) :
    w.toNat / 2 ^ 30 ≠ 3 ∧ w.toNat / 2 ^ 21 % 2 ^ 9 = 0 ∧ (w.toNat / 2 ^ 30 ≠ 1 → w.toNat % 2 ^ 21 = 0)
      ∧ (w.toNat / 2 ^ 30 = 1 → w.toNat % 2 ^ 20 < 2 ^ c.durW) := by
  obtain ⟨hd, hfit⟩ := Laws.decodeResponseFor_ok.1 h
  have hword : responseWord r = w := Laws.responseWord_of_decodeResponse hd
  cases r with
  | ack | timeout =>
    subst hword
    exact ⟨by decide, by decide, fun _ => by decide, fun h => absurd h (by decide)⟩
  | edge l d =>
    have hl : (levelBit l).toNat < 2 := (levelBit l).isLt
    have hdur : d.toNat < 2 ^ 20 := d.isLt
    have hw : w.toNat = 2 ^ 30 + (levelBit l).toNat * 2 ^ 20 + d.toNat := by
      rw [← hword]
      exact (Laws.rwWord_toNat 1 (levelBit l) d).trans (by simp)
    have helapsed : w.toNat % 2 ^ 20 = d.toNat := by omega
    refine ⟨by omega, by omega, by omega, fun _ => ?_⟩
    rw [helapsed]
    exact (Laws.durFits_iff c d).1 hfit

/-- A response on offer that does not decode under the widths leaves the block stuck (U4; log 6, log 16). -/
theorem respondWith_malformed {clause : Response → State → Host.Outcome State Fault Refusal} {s : State} {w : Word}
    {rest : List Word} (hc : s.crsp = w :: rest) (hd : ∀ r, decodeResponseFor s.cfg w ≠ .ok r) :
    respondWith clause s = .fault .malformedResponse := by
  simp only [respondWith, hc]
  split
  · rfl
  · rename_i r hr
    exact absurd hr (hd r)

/-- With a command outstanding the micro-operation of a command state is its `respond` step (R12). -/
theorem exec_microOp_pending {s : State} (hq : isCommandState s.state = true) (hp : s.pend = true) :
    exec (microOp s.state) s = respondWith respondIn s := by
  obtain ⟨c, hc⟩ := commandOf_of_isCommandState hq
  rw [exec_microOp_command hc, if_pos hp]

theorem exec_microOp_malformed {s : State} {w : Word} {rest : List Word} (hq : isCommandState s.state = true)
    (hp : s.pend = true) (hc : s.crsp = w :: rest)
    (h : w.toNat / 2 ^ 30 = 3 ∨ w.toNat / 2 ^ 21 % 2 ^ 9 ≠ 0 ∨ (w.toNat / 2 ^ 30 ≠ 1 ∧ w.toNat % 2 ^ 21 ≠ 0)
      ∨ (w.toNat / 2 ^ 30 = 1 ∧ 2 ^ s.cfg.durW ≤ w.toNat % 2 ^ 20)) :
    exec (microOp s.state) s = .fault .malformedResponse := by
  rw [exec_microOp_pending hq hp]
  refine respondWith_malformed hc fun r hd => ?_
  obtain ⟨hkind, hz, hlow, hdur⟩ := response_number hd
  obtain h | h | ⟨hk, h⟩ | ⟨hk, h⟩ := h
  · exact hkind h
  · exact h hz
  · exact h (hlow hk)
  · exact Nat.not_lt.2 h (hdur hk)

theorem exec_microOp_unexpected {s : State} {w : Word} {rest : List Word} {r : Response} (hq : isCommandState s.state = true)
    (hp : s.pend = true) (hc : s.crsp = w :: rest) (hd : decodeResponseFor s.cfg w = .ok r)
    (h : allowedResponse s.state r = false) : exec (microOp s.state) s = .fault .unexpectedResponse := by
  rw [exec_microOp_pending hq hp, respondWith_offered hc hd]
  exact respondIn_unexpected h

/-- Settles O14, clause by clause: a host word or a response by what the decoder takes, a command row by where R23 issues it, a response by
the kinds its state allows. -/
theorem stopsAreNamed : Obligations.StopsAreNamed := by
  refine ⟨?hostWord, ?readPin, ?readBusy, ?setDir, ?write, ?writeInput, ?waitEdge, ?sleepUs, ?sleepMs, ?reading, ?readError,
    ?notReady, ?ack, ?edge, ?edgeWidth, ?timeout, ?malformed, ?unexpected⟩
  case hostWord => exact fun s w rest hw h => exec_idle_malformed hw h
  case readPin =>
    intro m p s hq hp
    have hfit : ¬s.cfg.pinFits p = true := fun hf => Nat.not_lt.2 hp ((Laws.pinFits_iff s.cfg p).1 hf)
    exact (if_pos hq).trans (if_neg hfit)
  case readBusy => exact fun m p s hq => exec_read_busy m p hq
  case setDir =>
    intro s p d h
    exact exec_command_refused rfl (h.imp_right fun h => mt commandOf_eq_setDir.1 (not_and_or.2 h))
  case write =>
    intro s p l h
    exact exec_command_refused rfl (h.imp_right fun h => mt commandOf_eq_write.1 (not_and_or.2 h))
  case writeInput =>
    intro s l hp hd hq
    exact exec_write_inInputMode hp (commandOf_eq_write.2 ⟨rfl, hq⟩) hd
  case waitEdge =>
    intro s p t h
    refine exec_command_refused rfl (h.imp_right fun h hc => ?_)
    obtain ⟨hpin, ht, hq⟩ := commandOf_eq_waitEdge.1 hc
    obtain h | h | h := h
    · exact h hpin
    · exact h ht
    · exact Bool.eq_false_iff.1 h hq
  case sleepUs =>
    intro s n h
    exact exec_command_refused rfl (h.imp_right (mt commandOf_eq_sleepUs.1))
  case sleepMs =>
    intro s n h
    exact exec_command_refused rfl (h.imp_right (mt commandOf_eq_sleepMs.1))
  case reading => exact fun s h => if_neg h
  case readError =>
    intro s k n h
    exact if_neg fun ⟨hq, hk, ha, hkl, hkr, hn⟩ => h ⟨hq, hk, ha, hkl ▸ hkr, hkl, hn⟩
  case notReady =>
    intro s l d hp
    exact ⟨exec_response_notReady .ack hp, exec_response_notReady (.edge l d) hp, exec_response_notReady .timeout hp⟩
  case ack =>
    intro s hp hq
    exact exec_response_unexpected (r := .ack) hp rfl (Bool.eq_false_iff.2 fun ha => hq ((allowedResponse_ack _).1 ha))
  case edge =>
    intro s l d hp hq hd
    exact exec_response_unexpected (r := .edge l d) hp ((Laws.durFits_iff s.cfg d).2 hd) hq
  case edgeWidth =>
    intro s l d hp hd
    have hfit : ¬s.cfg.durFits d = true := fun hf => Nat.not_lt.2 hd ((Laws.durFits_iff s.cfg d).1 hf)
    exact (if_pos hp).trans (if_neg hfit)
  case timeout => exact fun s hp hq => exec_response_unexpected (r := .timeout) hp rfl hq
  case malformed => exact fun s w rest hq hp hc h => exec_microOp_malformed hq hp hc h
  case unexpected =>
    intro s w rest hq hp hc h
    obtain ⟨hcap, rfl⟩ | ⟨hcap, rfl | ⟨l, d, hd, rfl⟩⟩ := h
    · exact exec_microOp_unexpected hq hp hc (Laws.decodeResponseFor_ack s.cfg) (by simp [allowedResponse, hcap])
    · exact exec_microOp_unexpected hq hp hc (Laws.decodeResponseFor_timeout s.cfg) hcap
    · exact exec_microOp_unexpected hq hp hc (Laws.decodeResponseFor_edge l hd) hcap

end Sys2Proof.Machine

/-! SUPPORT. The steps of the handshake states, by what they answer: the issue of a command and the ACK that completes it
(spec/41_handshake.md R110 to R123). -/

namespace Sys2Proof.Machine

/-- Settles O8: `ATT_START` is the start of an attempt, whose definition writes what R110 lists. -/
theorem attemptStarted : Obligations.AttemptStarted := fun _ => rfl

/-! ## The two steps of a command state's micro-operation (R12) -/

/-- With no command outstanding the micro-operation issues its command (R12). -/
theorem command_issues {s : State} {o o' : Host.Outcome State Fault Refusal} (hp : s.pend = false) :
    (if s.pend then o else o') = o' := if_neg (Bool.eq_false_iff.1 hp)

/-- With an ACK on offer the micro-operation runs its clause on it (R12, R73). -/
theorem command_acked {clause : Response → State → Host.Outcome State Fault Refusal} {s : State} {rest : List Word}
    {o : Host.Outcome State Fault Refusal} (hp : s.pend = true) (hc : s.crsp = 0x00000000 :: rest) :
    (if s.pend then respondWith clause s else o) = clause .ack { s with crsp := rest } :=
  (if_pos hp).trans (respondWith_offered hc (Laws.decodeResponseFor_ack s.cfg))

/-! ## The sleeps (R113, R115, R117, R120, R121) -/

theorem issueSleepUs_eq (n : Dur) (s : State) :
    issueSleepUs n s = { s with ccmd := s.ccmd ++ [0x40000000#32 ||| n.setWidth 32], pend := true } := by
  rw [Laws.sleepUsWord_eq]
  rfl

theorem issueSleepMs_eq (n : Dur) (s : State) :
    issueSleepMs n s = { s with ccmd := s.ccmd ++ [0x50000000#32 ||| n.setWidth 32], pend := true } := by
  rw [Laws.sleepMsWord_eq]
  rfl

theorem issueWaitEdge_eq (p : Pin) (n : Dur) (s : State) : issueWaitEdge p n s
    = { s with ccmd := s.ccmd ++ [0x30000000#32 ||| (p.setWidth 32 <<< 20) ||| n.setWidth 32], pend := true } := by
  rw [Laws.waitWord_eq]
  rfl

/-- Settles O9: the issue step puts the sleep's word on CCMD, whatever its length, and the clause on ACK moves on. -/
theorem sleepStatesIssueAndAdvance : Obligations.SleepStatesIssueAndAdvance := by
  refine ⟨fun s hp => ?issue, fun s rest hp hc => ?ack⟩
  case issue =>
    rw [← issueSleepUs_eq, ← issueSleepMs_eq, ← issueSleepUs_eq]
    exact ⟨command_issues hp, command_issues hp, command_issues hp⟩
  case ack => exact ⟨command_acked hp hc, command_acked hp hc, command_acked hp hc⟩

/-! ## The direction and the level (R111, R112, R114, R116, R118, R119) -/

/-- `t` is `s` after the issue of the word `w`, but for the line of `PIN` (R118, R119). -/
def IssuedWord (w : Word) (s t : State) : Prop :=
  t = { s with ccmd := s.ccmd ++ [w], pend := true, lines := t.lines } ∧ ∀ q : Pin, q ≠ s.pin → t.line q = s.line q

theorem issueSetDir_issuedWord {w : Word} {d : Direction} {s : State} (hw : w = encode (.setDir s.pin d)) :
    IssuedWord w s (issueSetDir s.pin d s) :=
  ⟨hw ▸ rfl, fun _ hq => line_issueSetDir_other s hq d⟩

theorem issueWrite_issuedWord {w : Word} {l : Level} {s : State} (hw : w = encode (.write s.pin l)) :
    IssuedWord w s (issueWrite s.pin l s) :=
  ⟨hw ▸ rfl, fun _ hq => line_issueWrite_other s hq l⟩

theorem dir_completeSetDir {s : State} (h : Lines.wf s.lines = true) (p : Pin) (d : Direction) :
    ((completeSetDir p d s).line p).dir = some d := congrArg Line.dir (line_setLine_same h p _)

theorem out_completeSetDir_input {s : State} (h : Lines.wf s.lines = true) (p : Pin) :
    ((completeSetDir p .input s).line p).out = (s.line p).out := by
  rw [line_completeSetDir_input h]

/-- Settles O11: the words are the encoder's, and after the ACK the line of the pin is what `completeSetDir` writes. -/
theorem directionStatesSetTheLine : Obligations.DirectionStatesSetTheLine := by
  refine ⟨fun s hp => ⟨?outIssue, ?inIssue⟩, fun s rest hwf hp hc => ⟨?outAck, ?inAck⟩⟩
  case outIssue => exact ⟨_, command_issues hp, issueSetDir_issuedWord (Laws.setDirOutWord_eq s.pin)⟩
  case inIssue => exact ⟨_, command_issues hp, issueSetDir_issuedWord (Laws.setDirInWord_eq s.pin)⟩
  case outAck =>
    exact ⟨_, command_acked hp hc, rfl, dir_completeSetDir (s := { s with crsp := rest }) hwf s.pin .output,
      fun _ hq => line_completeSetDir_other s hq .output⟩
  case inAck =>
    exact ⟨_, command_acked hp hc, rfl, dir_completeSetDir (s := { s with crsp := rest }) hwf s.pin .input,
      out_completeSetDir_input (s := { s with crsp := rest }) hwf s.pin, fun _ hq => line_completeSetDir_other s hq .input⟩

/-- Settles O12: the words are the encoder's, and after the ACK a pin in Output mode has the line that `completeWrite` writes. -/
theorem levelStatesDriveTheLine : Obligations.LevelStatesDriveTheLine := by
  refine ⟨fun s hp => ⟨?highIssue, ?lowIssue⟩, fun s rest hwf hp hc => ⟨?highAck, ?lowAck⟩⟩
  case highIssue => exact ⟨_, command_issues hp, issueWrite_issuedWord (Laws.writeHighWord_eq s.pin)⟩
  case lowIssue => exact ⟨_, command_issues hp, issueWrite_issuedWord (Laws.writeLowWord_eq s.pin)⟩
  case highAck =>
    exact ⟨_, command_acked hp hc, rfl, fun hd => line_completeWrite_output (s := { s with crsp := rest }) hwf hd .high,
      fun _ hq => line_completeWrite_other s hq .high⟩
  case lowAck =>
    exact ⟨_, command_acked hp hc, rfl, fun hd => line_completeWrite_output (s := { s with crsp := rest }) hwf hd .low,
      fun _ hq => line_completeWrite_other s hq .low⟩

/-! ## The command rows (R118 to R121, R130) -/

/-- Settles O13: the row of the command that the state issues now is its issue step. -/
theorem commandRowsAreIssued : Obligations.CommandRowsAreIssued := by
  refine ⟨?setDir, ?write, ?waitEdge, ?sleepUs, ?sleepMs⟩
  case setDir =>
    intro s d hp hq
    exact ⟨_, exec_issued hp (commandOf_eq_setDir.2 ⟨rfl, hq⟩) nofun, issueSetDir_issuedWord (Laws.setDirWord_eq s.pin d)⟩
  case write =>
    intro s l hp hd hq
    exact ⟨_, exec_issued hp (commandOf_eq_write.2 ⟨rfl, hq⟩) fun _ _ => hd,
      issueWrite_issuedWord (Laws.writeWord_eq s.pin l)⟩
  case waitEdge =>
    intro s hp hq
    rw [← issueWaitEdge_eq]
    exact exec_issued hp (commandOf_eq_waitEdge.2 ⟨rfl, rfl, hq⟩) nofun
  case sleepUs =>
    intro s n hp hq
    rw [← issueSleepUs_eq]
    exact exec_issued hp (commandOf_eq_sleepUs.2 hq) nofun
  case sleepMs =>
    intro s n hp hq
    rw [← issueSleepMs_eq]
    exact exec_issued hp (commandOf_eq_sleepMs.2 hq) nofun

/-! ## ACK (R122) -/

/-- The states that expect ACK, each with the state it leads to (R23, R122). -/
def ackSuccessors : List (SeqState × SeqState) :=
  [(.hsDirOut, .hsDriveHigh), (.hsDriveHigh, .hsIdleHold), (.hsIdleHold, .hsDriveLow), (.hsDriveLow, .hsLowHold),
   (.hsLowHold, .hsRelease), (.hsRelease, .hsSettle), (.hsSettle, .capLead), (.retryDelay, .attStart)]

theorem isCommandState_of_allowedResponse_ack {q : SeqState} (h : allowedResponse q .ack = true) :
    isCommandState q = true := (Bool.and_eq_true_iff.1 h).1

/-- The table lists states that expect ACK, with their only successor in R23. -/
theorem successors_of_mem_ackSuccessors {q q' : SeqState} (h : (q, q') ∈ ackSuccessors) :
    allowedResponse q .ack = true ∧ successors q = [q'] := by
  have hall : ∀ e ∈ ackSuccessors, allowedResponse e.1 .ack = true ∧ successors e.1 = [e.2] := by decide
  exact hall _ h

/-- ACK carries no data: beside `PEND` and `STATE` its `respond` step touches the line only. -/
theorem responded_ack_frame {s t : State} (h : Responded .ack s t) :
    t = { s with pend := false, state := t.state, lines := t.lines } := by
  cases h with
  | lead _ _ _ hr | ackLow _ _ hr | ackHigh _ _ hr | bitLow _ _ hr | bitHigh _ _ hr | wrongLevel _ _ _ hr | timeout _ hr =>
    cases hr
  | _ =>
    subst_vars
    rfl

/-- What ACK does in a state of the table. -/
theorem respondIn_ack {s : State} {q : SeqState} (h : (s.state, q) ∈ ackSuccessors) :
    ∃ t, respondIn .ack s = .next t ∧ t = { s with pend := false, state := q, lines := t.lines } ∧ OwnedLineWrite s t := by
  obtain ⟨hack, hsucc⟩ := successors_of_mem_ackSuccessors h
  obtain ⟨t, ht⟩ := respondIn_allowed_answers hack
  have hr : Responded .ack s t := respondIn_next ht
  have hstate : t.state = q := List.mem_singleton.1 (hsucc ▸ responded_successor hr)
  exact ⟨t, ht, hstate ▸ responded_ack_frame hr, responded_ownedLineWrite hr⟩

/-- Settles O15: in the eight states ACK is the `respond` step, which writes at most the line of `PIN`; elsewhere it is not ready or not
expected. -/
theorem ackAdvances : Obligations.AckAdvances := by
  constructor
  · intro s q hp hq
    obtain ⟨t, ht, hframe, hown⟩ := respondIn_ack hq
    have hsleep : ∀ q ∈ [SeqState.hsIdleHold, .hsLowHold, .hsSettle, .retryDelay], q ∉ lineStates := by decide
    exact ⟨t, (exec_response (r := .ack) hp rfl).trans ht, hframe, fun _ => line_other_of_ownedLineWrite hown,
      fun hs => hown.resolve_right fun ⟨hmem, _⟩ => hsleep _ hs hmem⟩
  · intro s t hq hst
    have hack : allowedResponse s.state .ack = false := Bool.eq_false_iff.2 fun ha => hq ((allowedResponse_ack _).1 ha)
    cases hp : s.pend with
    | false => cases (exec_response_notReady .ack hp).symm.trans hst
    | true => cases (exec_response_unexpected (r := .ack) hp rfl hack).symm.trans hst

/-! ## No failure (R123) -/

/-- The states of the handshake, in order (R23, R124). -/
def handshakeStates : List SeqState :=
  [.hsDirOut, .hsDriveHigh, .hsIdleHold, .hsDriveLow, .hsLowHold, .hsRelease, .hsSettle]

/-- The handshake states are command states, none of them can fail an attempt, and none is `ATT_DONE` or leads to it (R23). -/
theorem handshakeStates_spec : ∀ q ∈ handshakeStates, isCommandState q = true ∧ isCaptureState q = false ∧ q ≠ .check ∧ q ≠ .gate
    ∧ q ≠ .attDone ∧ .attDone ∉ successors q := by decide

/-- Settles O16: `ATT_DONE` is neither the state nor its successor, only capture, `CHECK` and `GATE` write `ATT_RES`, and without a response on
offer the step is a wait. -/
theorem handshakeNeverFails : Obligations.HandshakeNeverFails := by
  intro s t hq hst
  obtain ⟨hcmd, hcap, hcheck, hgate, hdone, hsucc⟩ := handshakeStates_spec _ hq
  obtain ⟨-, -, -, hres, -⟩ := accessSummary s t hst
  refine ⟨fun he => ?_, hres hcap hcheck hgate, fun hp hr => ?_⟩
  · obtain hsame | hmem := successorsAsTabulated s t hst
    · exact hdone (hsame.symm.trans he)
    · exact hsucc (he ▸ hmem)
  · have hwait : step s = .next s := waitingChangesNothing.2 s (step_cases hst).1 hcmd hp hr
    cases hwait.symm.trans hst
    rfl

end Sys2Proof.Machine

/-! SUPPORT. The run of a whole handshake (spec/41_handshake.md R124). -/

namespace Sys2Proof.Machine

theorem run_succ {s t : State} (h : step s = .next t) (k : Nat) : Sys2Proof.core.run (k + 1) s = Sys2Proof.core.run k t := by
  have h : Sys2Proof.core.step s = .next t := h
  simp only [Host.Core.run, h]

/-- The word that the state `q` issues with the operands and parameters of `s` (R23, R72). -/
def wordIn (s : State) (q : SeqState) : Option Word := (commandOf { s with state := q }).map encode

/-- Whether ACK leads through the states `qs`, one after the other, to `last` (R122). -/
def isAckChain (qs : List SeqState) (last : SeqState) : Bool :=
  match qs with
  | [] => true
  | q :: rest => decide ((q, rest.headD last) ∈ ackSuccessors) && isAckChain rest last

/-- The issue of a command and its ACK, two steps (R12). -/
theorem run_acked_command {s : State} {q : SeqState} {rest : List Word} (hwf : s.cfg.wf = true) (hp : s.pend = false)
    (hq : (s.state, q) ∈ ackSuccessors) (hr : s.crsp = 0x00000000 :: rest) (k : Nat) :
    ∃ t : State, Sys2Proof.core.run (k + 2) s = Sys2Proof.core.run k t
      ∧ t = { s with state := q, crsp := rest, ccmd := s.ccmd ++ (wordIn s s.state).toList, lines := t.lines } := by
  have hcmd : isCommandState s.state = true :=
    isCommandState_of_allowedResponse_ack (successors_of_mem_ackSuccessors hq).1
  obtain ⟨c, hc⟩ := commandOf_of_isCommandState hcmd
  have hissue : step s = .next (issued c s) := step_issue hwf hp hc
  have hu := issued_frame hc
  generalize issued c s = u at hissue hu
  have hack : step u = respondIn .ack { u with crsp := rest } :=
    step_respond (by rw [hu]; exact hwf) (by rw [hu]; exact hcmd) (by rw [hu]) (by rw [hu]; exact hr)
      (Laws.decodeResponseFor_ack u.cfg)
  obtain ⟨t, hresp, ht, -⟩ := respondIn_ack (s := { u with crsp := rest }) (q := q) (by rw [hu]; exact hq)
  refine ⟨t, (run_succ hissue (k + 1)).trans (run_succ (hack.trans hresp) k), ?_⟩
  have hword : wordIn s s.state = some (encode c) := congrArg (Option.map encode) hc
  rw [ht, hword, hu, ← hp]
  rfl

/-- A chain of commands, each answered by an ACK: the words are those that the states issue, in order, and nothing changes but `STATE`, the
two ports and the line. -/
theorem run_ackChain {qs : List SeqState} {last : SeqState} {s : State} {rest : List Word}
    (hchain : isAckChain qs last = true) (hwf : s.cfg.wf = true) (hp : s.pend = false) (hq : s.state = qs.headD last)
    (hr : s.crsp = List.replicate qs.length 0x00000000 ++ rest) :
    ∃ t : State, Sys2Proof.core.run (2 * qs.length) s = .next t
      ∧ t = { s with state := last, crsp := rest, ccmd := s.ccmd ++ qs.filterMap (wordIn s), lines := t.lines } := by
  induction qs generalizing s with
  | nil =>
    refine ⟨s, rfl, ?_⟩
    simp only [List.headD_nil, List.length_nil, List.replicate_zero, List.nil_append] at hq hr
    simp [← hq, ← hr]
  | cons q qs ih =>
    obtain rfl : s.state = q := hq
    obtain ⟨hmem, hchain⟩ := Bool.and_eq_true_iff.1 hchain
    obtain ⟨u, hrun, hu⟩ := run_acked_command hwf hp (of_decide_eq_true hmem) hr (2 * qs.length)
    obtain ⟨t, hrun', ht⟩ := ih (s := u) hchain (by rw [hu]; exact hwf) (by rw [hu]; exact hp) (by rw [hu]) (by rw [hu]; rfl)
    refine ⟨t, hrun.trans hrun', ?_⟩
    have hword : wordIn u = wordIn s := by rw [hu]; rfl
    rw [ht, hword, hu]
    cases hw : wordIn s s.state <;> simp [hw]

/-- The words of the handshake, as the spec writes them (R124). -/
theorem handshake_words (s : State) : handshakeStates.filterMap (wordIn s) =
    [0x10000001#32 ||| (s.pin.setWidth 32 <<< 20), 0x20000001#32 ||| (s.pin.setWidth 32 <<< 20),
     0x40000000#32 ||| s.cfg.tIdleHoldUs.setWidth 32, 0x20000000#32 ||| (s.pin.setWidth 32 <<< 20),
     0x50000000#32 ||| (s.cfg.record s.model).startHoldMs.setWidth 32, 0x10000000#32 ||| (s.pin.setWidth 32 <<< 20),
     0x40000000#32 ||| s.cfg.tSettleUs.setWidth 32] := by
  rw [Laws.setDirOutWord_eq, Laws.writeHighWord_eq, Laws.sleepUsWord_eq, Laws.writeLowWord_eq, Laws.sleepMsWord_eq,
    Laws.setDirInWord_eq, Laws.sleepUsWord_eq]
  rfl

/-- Settles O17: the start of the attempt, then the chain of the seven handshake states. -/
theorem handshakeStream : Obligations.HandshakeStream := by
  intro s rest hwf hq hp hr
  have hstart : step s = .next (startAttempt s) := step_of_state hwf hq
  obtain ⟨t, hrun, ht⟩ := run_ackChain (qs := handshakeStates) (last := .capLead) (s := startAttempt s) (by decide) hwf hp rfl hr
  rw [handshake_words] at ht
  refine ⟨t, (run_succ hstart 14).trans hrun, ?_⟩
  rw [ht]
  exact ⟨rfl, hp, rfl, rfl, rfl, rfl, rfl, rfl⟩

end Sys2Proof.Machine

/-! SUPPORT. Handshakes and attempts are counted together (spec/41_handshake.md R124, spec/45_retry.md R177). -/

namespace Sys2Proof.Machine

/-- Of the commands only `SET_DIR pin, OUT` starts a handshake (R111, R124). -/
theorem isHandshakeStart_encode {c : Instr} (h : portOf c = .ccmd) :
    isHandshakeStart (encode c) = true ↔ ∃ p, c = .setDir p .output := by
  have hd : decodeCW (encode c) = .ok c := decode_ccmd_encode h
  simp only [isHandshakeStart, hd]
  cases c with
  | setDir p d => cases d <;> simp
  | _ => simp

/-- `HS_DIR_OUT` is the state that issues it (R111). -/
theorem isHandshakeStart_commandOf {s : State} {c : Instr} (h : commandOf s = some c) :
    isHandshakeStart (encode c) = true ↔ s.state = .hsDirOut := by
  rw [isHandshakeStart_encode (portOf_commandOf h)]
  constructor
  · rintro ⟨p, rfl⟩
    obtain ⟨-, ⟨hq, -⟩ | ⟨-, hd⟩⟩ := commandOf_eq_setDir.1 h
    · exact hq
    · cases hd
  · intro hq
    have hc : commandOf s = some (.setDir s.pin .output) := commandOf_eq_setDir.2 ⟨rfl, .inl ⟨hq, rfl⟩⟩
    exact ⟨s.pin, Option.some.inj (h.symm.trans hc)⟩

theorem handshakes_append {s t : State} {w : Word} (h : t.ccmd = s.ccmd ++ [w]) :
    handshakes t = handshakes s + if isHandshakeStart w then 1 else 0 := by
  simp only [handshakes, h, List.filter_append, List.length_append, List.filter_singleton]
  cases isHandshakeStart w <;> rfl

/-- Every attempt begun has its handshake, but for one whose first command is still to be issued. -/
theorem attemptsBegun_eq {s : State} (h : s.state ≠ .hsDirOut ∨ s.pend = true) : attemptsBegun s = s.attempts.toNat :=
  if_neg fun ⟨hq, hp⟩ => h.elim (absurd hq) (Bool.eq_false_iff.1 hp)

theorem attemptsBegun_waiting {s : State} (hq : s.state = .hsDirOut) (hp : s.pend = false) :
    attemptsBegun s = s.attempts.toNat - 1 := if_pos ⟨hq, hp⟩

/-- The issue of a handshake's first command counts it, the issue of any other command counts nothing. -/
theorem handshakes_issued {s : State} {c : Instr} (h : countInv s = true) (hp : s.pend = false) (hc : commandOf s = some c) :
    handshakes (issued c s) + attemptsBegun s = handshakes s + attemptsBegun (issued c s) := by
  have hcount : handshakes (issued c s) = handshakes s + if isHandshakeStart (encode c) then 1 else 0 :=
    handshakes_append (by rw [issued_frame hc])
  have hbegun : attemptsBegun (issued c s) = s.attempts.toNat := by
    rw [issued_frame hc]
    exact attemptsBegun_eq (.inr rfl)
  rw [hcount, hbegun, if_congr (isHandshakeStart_commandOf hc) rfl rfl]
  by_cases hq : s.state = .hsDirOut
  · have hone : 1 ≤ s.attempts.toNat := by
      simp only [countInv, hq, decide_eq_true_eq] at h
      exact h.1
    rw [if_pos hq, attemptsBegun_waiting hq hp]
    omega
  · rw [if_neg hq, attemptsBegun_eq (.inl hq)]
    omega

/-- The start of an attempt begins no handshake: its first command is still to be issued. -/
theorem attemptsBegun_startAttempt {s : State} (h : countInv s = true) (hp : s.pend = false) (hq : s.state = .attStart) :
    attemptsBegun (startAttempt s) = attemptsBegun s := by
  have hcap : s.attempts.toNat < s.cfg.attemptCap.toNat := by
    simpa only [countInv, hq, decide_eq_true_eq] using h
  rw [attemptsBegun_waiting (startAttempt_state s) hp, attemptsBegun_eq (.inl (by simp [hq])), startAttempt_attempts]
  bv_omega

/-- Into `HS_DIR_OUT` leads the start of an attempt only (R23, R110). -/
theorem eq_attStart_of_hsDirOut_mem_successors {q : SeqState} (h : .hsDirOut ∈ successors q) : q = .attStart := by
  revert h
  cases q <;> decide

/-- Settles O55: the issue in `HS_DIR_OUT` counts one handshake and begins one attempt; every other step counts and begins none. -/
theorem handshakesCountAttempts : Obligations.HandshakesCountAttempts := by
  intro s t hcount hpend hbusy hst
  obtain ⟨-, htr⟩ := step_cases hst
  cases htr with
  | idleWait hq | accept _ _ _ _ hq => exact absurd hq hbusy
  | wait _ _ _ ht => exact ht ▸ rfl
  | start hq ht =>
    subst ht
    rw [attemptsBegun_startAttempt hcount (not_pend_of_pendInv hpend (hq ▸ rfl)) hq]
    rfl
  | issue c hc hp ht => exact ht ▸ handshakes_issued hcount hp hc
  | respond w rest r hq hp _ _ hr =>
    have hsucc : t.state ∈ successors s.state := responded_successor (s := { s with crsp := rest }) hr
    have hne : t.state ≠ .hsDirOut := fun he => by
      have hstart : s.state = .attStart := eq_attStart_of_hsDirOut_mem_successors (he ▸ hsucc)
      rw [hstart] at hq
      cases hq
    rw [attemptsBegun_eq (.inr hp), attemptsBegun_eq (.inl hne), responded_frame hr]
    rfl
  | checkOk hq _ ht | checkFail hq _ ht | convert hq ht | gateOk hq _ _ ht | gateFail hq _ ht | reading hq _ ht
  | readError hq _ _ ht | retry hq _ _ ht =>
    have hbegun : attemptsBegun s = s.attempts.toNat := attemptsBegun_eq (.inl (by simp [hq]))
    have hbegun' : attemptsBegun t = t.attempts.toNat := attemptsBegun_eq (.inl (by simp [ht]))
    rw [hbegun, hbegun', ht]
    rfl

end Sys2Proof.Machine

/-! SUPPORT. The steps of the capture states, by what they answer: the issue of WAIT_EDGE, and the EDGE or TIMEOUT that ends the wait
(spec/42_capture_bits.md R130 to R140). -/

namespace Sys2Proof.Machine

/-! ## The words of the capture -/

/-- Two commands with the same word are the same command (R72). -/
theorem encode_ccmd_inj {i j : Instr} (hi : portOf i = .ccmd) (hj : portOf j = .ccmd) (h : encode i = encode j) : i = j :=
  Except.ok.inj ((decode_ccmd_encode hi).symm.trans (h ▸ decode_ccmd_encode hj))

/-- Settles O18: the issue step is the one of R12 with R130's word, and a step that extends CCMD is the issue of the state's command. -/
theorem captureStatesIssueWaitEdge : Obligations.CaptureStatesIssueWaitEdge := by
  refine ⟨fun s hp hq => ?issue, fun s t p d hst hccmd => ?only⟩
  case issue =>
    rw [← issueWaitEdge_eq, exec_microOp_command (commandOf_eq_waitEdge.2 ⟨rfl, rfl, hq⟩)]
    exact command_issues hp
  case only =>
    obtain ⟨-, -, c, hc, hccmd', -⟩ | ⟨hccmd', -⟩ := oneCommandOutstanding s t hst
    · have hword : encode (.waitEdge p d) = encode c :=
        List.singleton_inj.1 (List.append_cancel_left (hccmd.symm.trans hccmd'))
      obtain rfl : Instr.waitEdge p d = c := encode_ccmd_inj rfl (portOf_commandOf hc) hword
      obtain ⟨hpin, hdur, hq⟩ := commandOf_eq_waitEdge.1 hc
      exact ⟨hq, hpin, hdur⟩
    · rw [hccmd'] at hccmd
      simp at hccmd

/-! ## The two answers to WAIT_EDGE (R132 to R138) -/

/-- With a response on offer the micro-operation runs its clause on it (R12). -/
theorem command_answered {clause : Response → State → Host.Outcome State Fault Refusal} {s : State} {w : Word} {rest : List Word}
    {r : Response} {o : Host.Outcome State Fault Refusal} (hp : s.pend = true) (hc : s.crsp = w :: rest)
    (hd : decodeResponseFor s.cfg w = .ok r) :
    (if s.pend then respondWith clause s else o) = clause r { s with crsp := rest } :=
  (if_pos hp).trans (respondWith_offered hc hd)

/-- A clause that checks the level always answers an EDGE. -/
theorem expectLevel_edge (want : Level) (q : SeqState) (l : Level) (d : Dur) (s : State) :
    expectLevel want q (.edge l d) s = .next (if l = want then { appendTrace l d s with pend := false, state := q }
      else captureTimeout (appendTrace l d s)) := (apply_ite _ _ _ _).symm

/-- Settles O19: each state runs its clause on the response, the level checked by `expectLevel`. -/
theorem captureSkipsAndChecksLevels : Obligations.CaptureSkipsAndChecksLevels := by
  refine ⟨fun s l d rest hp hdur hc => ?edge, fun s rest hp hc => ?timeout⟩
  case edge =>
    have hd : decodeResponseFor s.cfg _ = .ok (.edge l d) := Laws.decodeResponseFor_edge l hdur
    exact ⟨command_answered hp hc hd, (command_answered hp hc hd).trans (expectLevel_edge ..),
      (command_answered hp hc hd).trans (expectLevel_edge ..), (command_answered hp hc hd).trans (expectLevel_edge ..)⟩
  case timeout =>
    have hd : decodeResponseFor s.cfg _ = .ok .timeout := Laws.decodeResponseFor_timeout s.cfg
    exact ⟨command_answered hp hc hd, command_answered hp hc hd, command_answered hp hc hd, command_answered hp hc hd⟩

/-! ## The bit (R139, R140) -/

theorem accumulate_toNat (sr : Frame) (b : BitVec 1) : (accumulate sr b).toNat = (2 * sr.toNat + b.toNat) % 2 ^ 40 := by
  have hb : b.toNat < 2 := b.isLt
  have hshift : (sr <<< 1).toNat = 2 ^ 1 * (sr.toNat % 2 ^ 39) := by
    rw [BitVec.toNat_shiftLeft, Nat.shiftLeft_eq]
    omega
  have hbit : (b.setWidth 40).toNat = b.toNat := by
    rw [BitVec.toNat_setWidth]
    omega
  rw [accumulate, BitVec.toNat_or, hshift, hbit, ← Nat.two_pow_add_eq_or_of_lt hb]
  omega

theorem classify_toNat (c : Config) (m : SensorModel) (d : Dur) : (classify c m d).toNat =
    if (c.record m).bitThresholdUs < d then 1
    else if d < (c.record m).bitThresholdUs then 0
    else if c.tieIsOne then 1 else 0 := by
  simp only [classify, BitVec.lt_def, apply_ite BitVec.toNat]
  rfl

/-- Settles O20: a high phase is shifted in, its bit by `classify` and its shift by `accumulate`; a low one, or none, fails. -/
theorem bitShiftedIn : Obligations.BitShiftedIn := by
  refine ⟨fun s d rest hp hdur hc => ?high, fun s d rest hp hdur hc => ?low, fun s rest hp hc => ?timeout⟩
  case high =>
    have hd : decodeResponseFor s.cfg _ = .ok (.edge .high d) := Laws.decodeResponseFor_edge .high hdur
    refine ⟨_, command_answered hp hc hd, ?_, ?_⟩
    · rw [← afterBit_succ]
      rfl
    · rw [← classify_toNat]
      exact accumulate_toNat _ _
  case low => exact command_answered hp hc (Laws.decodeResponseFor_edge .low hdur)
  case timeout => exact command_answered hp hc (Laws.decodeResponseFor_timeout s.cfg)

/-! ## EDGE and TIMEOUT as operations (R132, R133) -/

/-- A response that is consumed is of a kind that the state's command allows (R77, R86). -/
theorem allowedResponse_of_exec {r : Response} {s t : State} (h : exec r.instr s = .next t) : allowedResponse s.state r = true := by
  cases hp : s.pend with
  | false => cases (exec_response_notReady r hp).symm.trans h
  | true =>
    cases hf : r.instr.fits s.cfg with
    | true => exact allowedResponse_of_responded (respondIn_next ((exec_response hp hf).symm.trans h))
    | false =>
      cases r with
      | ack | timeout => cases hf
      | edge l d => cases ((if_pos hp).trans (if_neg (Bool.eq_false_iff.1 hf))).symm.trans h

/-- Settles O22: TIMEOUT is the `respond` step that fails the attempt; what is consumed is allowed. -/
theorem timeoutAbandonsTheAttempt : Obligations.TimeoutAbandonsTheAttempt := by
  refine ⟨fun s hp hq => ?capture, fun s t hq hst => ?elsewhere⟩
  case capture => exact (exec_response (r := .timeout) hp rfl).trans (respondIn_of_responded (.timeout hq rfl rfl))
  case elsewhere => exact Bool.eq_false_iff.1 hq (allowedResponse_of_exec (r := .timeout) hst)

/-- The level a capture state rejects (R134 to R138). -/
def rejectsLevel (q : SeqState) (l : Level) : Prop :=
  (q ∈ [SeqState.capAckLow, .capBitLow] ∧ l = .high) ∨ (q ∈ [SeqState.capAckHigh, .capBitHigh] ∧ l = .low)

/-- An EDGE goes on, or fails the attempt where its level is rejected; only a bit writes `SR` and `BITCNT`. -/
theorem responded_edge {l : Level} {d : Dur} {s t : State} (h : Responded (.edge l d) s t) :
    t = { s with pend := false, trace := s.trace ++ [⟨l, d⟩], state := t.state, attRes := t.attRes, sr := t.sr, bitcnt := t.bitcnt }
      ∧ (t.state = .attDone ↔ rejectsLevel s.state l)
      ∧ (t.state = .attDone → t.attRes = .timeout) ∧ (t.state ≠ .attDone → t.attRes = s.attRes)
      ∧ (s.state ≠ .capBitHigh ∨ l = .low → t.sr = s.sr ∧ t.bitcnt = s.bitcnt) := by
  cases h with
  | lead _ _ hq hr ht | ackLow _ hq hr ht | ackHigh _ hq hr ht | bitLow _ hq hr ht =>
    cases hr
    subst ht
    exact ⟨rfl, iff_of_false nofun (by simp [rejectsLevel, hq]), nofun, fun _ => rfl, fun _ => ⟨rfl, rfl⟩⟩
  | bitHigh _ hq hr ht =>
    cases hr
    subst ht
    have hne : afterBit (s.bitcnt + 1) ≠ .attDone := by
      rw [afterBit_succ]
      split <;> nofun
    exact ⟨rfl, iff_of_false hne (by simp [rejectsLevel, hq]), fun h => absurd h hne, fun _ => rfl, fun h => by simp [hq] at h⟩
  | wrongLevel _ _ hq hr ht =>
    cases hr
    subst ht
    have hrejects : rejectsLevel s.state l := by
      obtain ⟨hq, rfl⟩ | ⟨hq, rfl⟩ | ⟨hq, rfl⟩ | ⟨hq, rfl⟩ := hq <;> simp [rejectsLevel, hq]
    exact ⟨rfl, iff_of_true rfl hrejects, fun _ => rfl, fun h => absurd rfl h, fun _ => ⟨rfl, rfl⟩⟩
  | _ _ hr => cases hr

/-- Settles O21: in a capture state EDGE is the `respond` step, of which `responded_edge` says what it writes; what is consumed is allowed. -/
theorem edgeConsumed : Obligations.EdgeConsumed := by
  refine ⟨fun s l d hp hq hdur => ?capture, fun s t l d hq hst => ?elsewhere⟩
  case capture =>
    obtain ⟨t, ht⟩ := respondIn_capture_answers (r := .edge l d) hq nofun
    have hr : Responded (.edge l d) s t := respondIn_next ht
    obtain ⟨hframe, hdone, hfail, hgoesOn, hsr⟩ := responded_edge hr
    have htrace : t.trace = s.trace ++ [⟨l, d⟩] := by rw [hframe]
    exact ⟨t, (exec_response (r := .edge l d) hp ((Laws.durFits_iff s.cfg d).2 hdur)).trans ht, htrace, responded_successor hr,
      htrace ▸ hframe, hdone, hfail, hgoesOn, hsr⟩
  case elsewhere => exact Bool.eq_false_iff.1 hq (allowedResponse_of_exec (r := .edge l d) hst)

end Sys2Proof.Machine

/-! SUPPORT. The gate on converted values: a float that `toFloat` gives lies within an integer bound exactly when the tenths do
(spec/44_convert_gate.md R162, R164 to R169). -/

namespace Sys2Proof.Machine

/-! ## The significand of `fl(n / 10)` (R162, R166) -/

/-- `k = e + 4` of `mag`, where `2^e ≤ n / 10 < 2^(e+1)`. -/
def magScale (n : Nat) : Nat := Nat.log2 (16 * n / 10)

/-- The rounded significand of `mag`, from `2^frac` to `2^(frac+1)`. -/
def magSignificand (frac n : Nat) : Nat :=
  if 5 < n * 2 ^ (frac + 4 - magScale n) % 10 then n * 2 ^ (frac + 4 - magScale n) / 10 + 1
  else n * 2 ^ (frac + 4 - magScale n) / 10

/-- The exponent field and the fraction field of `mag`; a significand rounded up to `2^(frac+1)` carries into the exponent. -/
def magFields (frac bias n : Nat) : Nat × Nat :=
  if magSignificand frac n = 2 ^ (frac + 1) then (magScale n + 1 + bias - 4, 0)
  else (magScale n + bias - 4, magSignificand frac n - 2 ^ frac)

@[simp] theorem mag_zero (frac bias : Nat) : mag frac bias 0 = 0 := rfl

theorem mag_eq_fields {n : Nat} (hn : n ≠ 0) (frac bias : Nat) :
    mag frac bias n = (magFields frac bias n).1 * 2 ^ frac + (magFields frac bias n).2 := by
  refine (if_neg hn).trans ?_
  unfold magFields
  split
  · exact if_pos ‹_›
  · exact if_neg ‹_›

theorem two_pow_magScale {n : Nat} (hn : n ≠ 0) : 10 * 2 ^ magScale n ≤ 16 * n ∧ 16 * n < 20 * 2 ^ magScale n := by
  have hle : 2 ^ magScale n ≤ 16 * n / 10 := Nat.log2_self_le (by omega)
  have hlt : 16 * n / 10 < 2 ^ (magScale n + 1) := Nat.lt_log2_self
  omega

theorem magScale_le {n : Nat} (hn : n ≠ 0) (hle : n ≤ 65535) : magScale n ≤ 16 := by
  obtain ⟨hpow, -⟩ := two_pow_magScale hn
  have hlt : 2 ^ magScale n < 2 ^ 17 := by omega
  exact Nat.le_of_lt_succ ((Nat.pow_lt_pow_iff_right (by decide)).1 hlt)

section
variable {frac n : Nat} (hn : n ≠ 0) (hle : n ≤ 65535) (hfrac : 16 ≤ frac)
include hn hle hfrac

/-- The unit of the significand is fine enough to tell tenths apart. -/
theorem magScale_unit : 10 ≤ 2 ^ (frac + 4 - magScale n)
    ∧ 2 ^ (frac + 4 - magScale n) * 2 ^ magScale n = 16 * 2 ^ frac := by
  have hk : magScale n ≤ 16 := magScale_le hn hle
  constructor
  · calc 10 ≤ 2 ^ 4 := by decide
      _ ≤ 2 ^ (frac + 4 - magScale n) := Nat.pow_le_pow_right (by decide) (by omega)
  · rw [← Nat.pow_add, show frac + 4 - magScale n + magScale n = 4 + frac by omega, Nat.pow_add]

theorem magSignificand_bounds : 2 ^ frac ≤ magSignificand frac n ∧ magSignificand frac n ≤ 2 ^ (frac + 1) := by
  obtain ⟨hlo, hhi⟩ := two_pow_magScale hn
  obtain ⟨hp, hpk⟩ := magScale_unit hn hle hfrac
  unfold magSignificand
  generalize 2 ^ (frac + 4 - magScale n) = p at *
  have hlo : p * (10 * 2 ^ magScale n) ≤ p * (16 * n) := Nat.mul_le_mul_left p hlo
  have hhi : p * (16 * n) < p * (20 * 2 ^ magScale n) := Nat.mul_lt_mul_of_pos_left hhi (by omega)
  have hx : 10 * 2 ^ frac ≤ n * p ∧ n * p < 20 * 2 ^ frac := by
    constructor <;> linarith
  split <;> omega

/-- Rounding to nearest keeps the comparison with a whole number. -/
theorem magSignificand_le_iff (c : Nat) : magSignificand frac n ≤ c * 2 ^ (frac + 4 - magScale n) ↔ n ≤ 10 * c := by
  obtain ⟨hp, -⟩ := magScale_unit hn hle hfrac
  unfold magSignificand
  generalize 2 ^ (frac + 4 - magScale n) = p at *
  by_cases hnc : n ≤ 10 * c
  · have hx : n * p ≤ 10 * c * p := Nat.mul_le_mul_right p hnc
    rw [Nat.mul_assoc] at hx
    refine iff_of_true ?_ hnc
    split <;> omega
  · have hx : (10 * c + 1) * p ≤ n * p := Nat.mul_le_mul_right p (Nat.lt_of_not_le hnc)
    rw [Nat.add_mul, Nat.mul_assoc] at hx
    refine iff_of_false ?_ hnc
    split <;> omega

theorem magFields_lt {bias : Nat} (hbias : 4 ≤ bias) :
    (magFields frac bias n).1 ≤ bias + 13 ∧ (magFields frac bias n).2 < 2 ^ frac := by
  have hk : magScale n ≤ 16 := magScale_le hn hle
  obtain ⟨hlo, hhi⟩ := magSignificand_bounds hn hle hfrac
  have hp : 0 < 2 ^ frac := Nat.two_pow_pos frac
  unfold magFields
  split
  · exact ⟨by omega, hp⟩
  · exact ⟨by omega, by omega⟩

/-- The fields spell the significand at the scale `k`. -/
theorem magFields_value {bias : Nat} (hbias : 4 ≤ bias) :
    (2 ^ frac + (magFields frac bias n).2) * 2 ^ (magFields frac bias n).1
      = magSignificand frac n * 2 ^ (magScale n + bias - 4) := by
  obtain ⟨hlo, -⟩ := magSignificand_bounds hn hle hfrac
  unfold magFields
  split
  next hcarry =>
    rw [hcarry, show magScale n + 1 + bias - 4 = magScale n + bias - 4 + 1 by omega]
    ring
  next => rw [Nat.add_sub_cancel' hlo]

end

/-! ## The comparison with an integer bound (R168) -/

/-- A normal number is compared with an integer by comparing the two as multiples of `2^-(frac + bias)`. -/
theorem magnitudeLe_normal {frac bias maxExp exponent fraction c : Nat} (hmax : exponent ≠ maxExp) (hf : fraction < 2 ^ frac)
    (hc : 1 ≤ c) : magnitudeLe frac bias maxExp exponent fraction c
      = decide ((2 ^ frac + fraction) * 2 ^ exponent ≤ c * 2 ^ (frac + bias)) := by
  unfold magnitudeLe
  rw [if_neg hmax]
  split
  next hlt =>
    have hle : (2 ^ frac + fraction) * 2 ^ exponent ≤ c * 2 ^ (frac + bias) :=
      calc (2 ^ frac + fraction) * 2 ^ exponent ≤ 2 ^ (frac + 1) * 2 ^ exponent := Nat.mul_le_mul_right _ (by omega)
        _ = 2 ^ (frac + 1 + exponent) := (Nat.pow_add ..).symm
        _ ≤ 2 ^ (frac + bias) := Nat.pow_le_pow_right (by decide) (by omega)
        _ ≤ c * 2 ^ (frac + bias) := Nat.le_mul_of_pos_left _ hc
    rw [decide_eq_true hc, Bool.or_true, decide_eq_true hle]
  next hge =>
    have hexp : exponent = exponent - bias + bias := by omega
    rw [hexp, Nat.pow_add, Nat.pow_add, ← Nat.mul_assoc, ← Nat.mul_assoc, Nat.add_sub_cancel]
    exact decide_eq_decide.2 (Nat.mul_le_mul_right_iff (Nat.two_pow_pos bias)).symm

/-- The magnitude of `fl(n / 10)` is at most an integer exactly when `n / 10` is (R169). -/
theorem magnitudeLe_magFields {frac bias maxExp n c : Nat} (hn : n ≠ 0) (hle : n ≤ 65535) (hfrac : 16 ≤ frac) (hbias : 4 ≤ bias)
    (hmax : bias + 13 < maxExp) (hc : 1 ≤ c) :
    magnitudeLe frac bias maxExp (magFields frac bias n).1 (magFields frac bias n).2 c = decide (n ≤ 10 * c) := by
  obtain ⟨hexp, hfrac'⟩ := magFields_lt hn hle hfrac hbias
  have hk : magScale n ≤ 16 := magScale_le hn hle
  have hsplit : c * 2 ^ (frac + bias) = c * 2 ^ (frac + 4 - magScale n) * 2 ^ (magScale n + bias - 4) := by
    rw [Nat.mul_assoc, ← Nat.pow_add]
    congr 2
    omega
  rw [magnitudeLe_normal (by omega) hfrac' hc, magFields_value hn hle hfrac hbias, hsplit]
  exact decide_eq_decide.2 ((Nat.mul_le_mul_right_iff (Nat.two_pow_pos _)).trans (magSignificand_le_iff hn hle hfrac c))

/-- The fields of `fl(n / 10)`, zero included (R164), and what a bound asks of them. -/
theorem exists_fields_mag {frac bias maxExp n : Nat} (hle : n ≤ 65535) (hfrac : 16 ≤ frac) (hbias : 4 ≤ bias)
    (hmax : bias + 13 < maxExp) : ∃ e f, mag frac bias n = e * 2 ^ frac + f ∧ e ≤ bias + 13 ∧ f < 2 ^ frac
      ∧ ∀ c, 1 ≤ c → magnitudeLe frac bias maxExp e f c = decide (n ≤ 10 * c) := by
  by_cases hn : n = 0
  · subst hn
    refine ⟨0, 0, by simp, Nat.zero_le _, Nat.two_pow_pos _, fun c _ => ?_⟩
    rw [magnitudeLe, if_neg (by omega), if_pos (by omega)]
    simp
  · obtain ⟨he, hf⟩ := magFields_lt hn hle hfrac hbias
    exact ⟨_, _, mag_eq_fields hn frac bias, he, hf, fun c hc => magnitudeLe_magFields hn hle hfrac hbias hmax hc⟩

/-! ## The fields of a float register (R84) -/

theorem signed_toNat {w : Nat} (sg : BitVec 1) {v : BitVec (w + 1)} (h : v.toNat < 2 ^ w) :
    ((sg.setWidth (w + 1) <<< w) ||| v).toNat = 2 ^ w * sg.toNat + v.toNat := by
  have hsg : sg.toNat ≤ 1 := Nat.le_of_lt_succ sg.isLt
  have hlt : sg.toNat * 2 ^ w < 2 ^ (w + 1) := by
    rw [Nat.pow_succ']
    exact Nat.mul_lt_mul_of_lt_of_le' (by omega) le_rfl (Nat.two_pow_pos w)
  have hwidth : sg.toNat < 2 ^ (w + 1) := lt_of_lt_of_le sg.isLt (Nat.pow_le_pow_right (by decide) (by omega))
  rw [BitVec.toNat_or, BitVec.toNat_shiftLeft, BitVec.toNat_setWidth, Nat.shiftLeft_eq, Nat.mod_eq_of_lt hwidth,
    Nat.mod_eq_of_lt hlt, Nat.mul_comm, Nat.two_pow_add_eq_or_of_lt h]

/-- The three fields of a binary32 pattern joined from a sign, an exponent and a fraction. -/
theorem fields32 (sg : BitVec 1) {b : BitVec 32} {e f : Nat} (hb : b = (sg.setWidth 32 <<< 31) ||| BitVec.ofNat 32 (e * 2 ^ 23 + f))
    (he : e < 2 ^ 8) (hf : f < 2 ^ 23) : bits b 31 31 = sg ∧ (bits b 30 23).toNat = e ∧ (bits b 22 0).toNat = f := by
  have hsg : sg.toNat < 2 := sg.isLt
  have hv : (BitVec.ofNat 32 (e * 2 ^ 23 + f)).toNat = e * 2 ^ 23 + f := by
    rw [BitVec.toNat_ofNat, Nat.mod_eq_of_lt (by omega)]
  have hb : b.toNat = 2 ^ 31 * sg.toNat + (e * 2 ^ 23 + f) := by
    rw [hb, signed_toNat (w := 31) sg (by omega), hv]
  refine ⟨BitVec.eq_of_toNat_eq ?_, ?_, ?_⟩ <;> rw [Laws.toNat_bits, hb] <;> omega

/-- The three fields of a binary64 pattern joined likewise. -/
theorem fields64 (sg : BitVec 1) {b : BitVec 64} {e f : Nat} (hb : b = (sg.setWidth 64 <<< 63) ||| BitVec.ofNat 64 (e * 2 ^ 52 + f))
    (he : e < 2 ^ 11) (hf : f < 2 ^ 52) : bits b 63 63 = sg ∧ (bits b 62 52).toNat = e ∧ (bits b 51 0).toNat = f := by
  have hsg : sg.toNat < 2 := sg.isLt
  have hv : (BitVec.ofNat 64 (e * 2 ^ 52 + f)).toNat = e * 2 ^ 52 + f := by
    rw [BitVec.toNat_ofNat, Nat.mod_eq_of_lt (by omega)]
  have hb : b.toNat = 2 ^ 63 * sg.toNat + (e * 2 ^ 52 + f) := by
    rw [hb, signed_toNat (w := 63) sg (by omega), hv]
  refine ⟨BitVec.eq_of_toNat_eq ?_, ?_, ?_⟩ <;> rw [Laws.toNat_bits, hb] <;> omega

/-- A float that `toFloat` gives lies within integer bounds exactly when its tenths do; zero of either sign does (R164, R169). -/
theorem inRange_toFloat (fmt : FloatFmt) (sg : BitVec 1) {n lo hi : Nat} (hn : n ≤ 65535) (hc : 1 ≤ if sg = 1 then lo else hi) :
    inRange lo hi (toFloat fmt sg n) = decide (n ≤ 10 * if sg = 1 then lo else hi) := by
  cases fmt with
  | binary32 =>
    obtain ⟨e, f, hmag, he, hf, hgate⟩ := exists_fields_mag (frac := 23) (bias := 127) (maxExp := 255) hn
      (by decide) (by decide) (by decide)
    obtain ⟨hsg, hexp, hfrac⟩ := fields32 sg (e := e) (f := f) rfl (by omega) hf
    simp only [toFloat, mag32, hmag, inRange, hsg, hexp, hfrac, hgate _ hc]
  | binary64 =>
    obtain ⟨e, f, hmag, he, hf, hgate⟩ := exists_fields_mag (frac := 52) (bias := 1023) (maxExp := 2047) hn
      (by decide) (by decide) (by decide)
    obtain ⟨hsg, hexp, hfrac⟩ := fields64 sg (e := e) (f := f) rfl (by omega) hf
    simp only [toFloat, mag64, hmag, inRange, hsg, hexp, hfrac, hgate _ hc]

/-- The humidity bounds in tenths (R168, R169). -/
theorem humInRange_toFloat (fmt : FloatFmt) {n : Nat} (hn : n ≤ 65535) :
    humInRange (toFloat fmt 0 n) = decide (n ≤ 1000) := inRange_toFloat fmt 0 hn (by decide)

/-- The temperature bounds in tenths, by the sign (R168, R169). -/
theorem tempInRange_toFloat (fmt : FloatFmt) (sg : BitVec 1) {n : Nat} (hn : n ≤ 65535) :
    tempInRange (toFloat fmt sg n) = decide ((sg = 0 ∧ n ≤ 800) ∨ (sg = 1 ∧ n ≤ 400)) := by
  obtain rfl | rfl : sg = 0 ∨ sg = 1 := by
    revert sg
    decide
  · exact (inRange_toFloat fmt 0 hn (by decide)).trans (by simp)
  · exact (inRange_toFloat fmt 1 hn (by decide)).trans (by simp)

end Sys2Proof.Machine

/-! SUPPORT. From a complete frame to the attempt's result (spec/43_checksum.md R150, spec/44_convert_gate.md R155, R167, R169). -/

namespace Sys2Proof.Machine

/-- `GATE` on converted values decides by the tenths (R169). -/
theorem exec_gate_converted {s : State} {h : BitVec 16} {sg : BitVec 1} {t : BitVec 15}
    (hhum : s.humF = toFloat s.cfg.floatFmt 0 h.toNat) (htemp : s.tempF = toFloat s.cfg.floatFmt sg t.toNat) :
    exec .gate s = .next { s with state := .attDone, attRes :=
      if h.toNat ≤ 1000 ∧ ((sg = 0 ∧ t.toNat ≤ 800) ∨ (sg = 1 ∧ t.toNat ≤ 400)) then .success else .implausibleValue } := by
  have hh : hOk s = decide (h.toNat ≤ 1000) := by
    rw [hOk, hhum, humInRange_toFloat _ (Nat.le_of_lt_succ h.isLt)]
  have ht : tOk s = decide ((sg = 0 ∧ t.toNat ≤ 800) ∨ (sg = 1 ∧ t.toNat ≤ 400)) := by
    rw [tOk, htemp, tempInRange_toFloat _ sg (Nat.le_of_lt_succ (t.isLt.trans (by decide)))]
  simp only [exec, execGate, hh, ht, ← Bool.decide_and, decide_eq_true_eq]
  split <;> rfl

/-- The state after `CONVERT` (R155). -/
def converted (s : State) : State :=
  { s with
    h10 := (frameTenths s).h, tNeg := (frameTenths s).s, tMag := (frameTenths s).t,
    humF := toFloat s.cfg.floatFmt 0 (frameTenths s).h.toNat,
    tempF := toFloat s.cfg.floatFmt (frameTenths s).s (frameTenths s).t.toNat,
    state := .gate }

/-- The integer gate on the tenths of the frame held in `SR` (R169). -/
def gateResult (s : State) : AttRes :=
  if (frameTenths s).h.toNat ≤ 1000
    ∧ (((frameTenths s).s = 0 ∧ (frameTenths s).t.toNat ≤ 800) ∨ ((frameTenths s).s = 1 ∧ (frameTenths s).t.toNat ≤ 400))
  then .success else .implausibleValue

theorem run_convert {s : State} (hwf : s.cfg.wf = true) (hq : s.state = .convert) :
    Sys2Proof.core.run 2 s = .next { converted s with state := .attDone, attRes := gateResult s } := by
  have hconvert : step s = .next (converted s) := step_of_state hwf hq
  have hgate : step (converted s) = .next { converted s with state := .attDone, attRes := gateResult s } :=
    (step_of_state (s := converted s) (q := .gate) hwf rfl).trans (exec_gate_converted rfl rfl)
  exact (run_succ hconvert 1).trans (run_succ hgate 0)

theorem frameResult_of_not_frameOk {f : Frame} (h : ¬frameOk f = true) (c : Config) (m : SensorModel) :
    frameResult c m f = .checksumMismatch := if_pos (mt decide_eq_true h)

theorem frameResult_of_frameOk {s : State} (h : frameOk s.sr = true) : frameResult s.cfg s.model s.sr = gateResult s :=
  if_neg (not_not_intro (of_decide_eq_true h))

/-- The run from `CHECK`: one step where the checksum fails, else `CONVERT` and `GATE` as well. -/
theorem run_check {s : State} (hwf : s.cfg.wf = true) (hq : s.state = .check) :
    ∃ (n : Nat) (t : State), n ≤ 3 ∧ Sys2Proof.core.run n s = .next t
      ∧ t = { s with state := .attDone, attRes := frameResult s.cfg s.model s.sr, h10 := t.h10, tNeg := t.tNeg, tMag := t.tMag,
                     humF := t.humF, tempF := t.tempF } := by
  by_cases hk : frameOk s.sr = true
  · have hcheck : step s = .next { s with state := .convert } := step_of_transition hwf (.checkOk hq hk rfl)
    refine ⟨3, _, le_rfl, (run_succ hcheck 2).trans (run_convert hwf rfl), ?_⟩
    rw [frameResult_of_frameOk hk]
    rfl
  · have hcheck : step s = .next (attemptFail .checksumMismatch s) :=
      step_of_transition hwf (.checkFail hq (Bool.eq_false_iff.2 hk) rfl)
    refine ⟨1, _, by decide, run_succ hcheck 0, ?_⟩
    rw [frameResult_of_not_frameOk hk]
    rfl

/-- Settles O32: the run from `CHECK` changes `ATT_RES`, the operands of the conversion and the floats, nothing else. -/
theorem frameResultComputed : Obligations.FrameResultComputed := by
  intro s hwf hq _
  obtain ⟨n, t, hn, hrun, ht⟩ := run_check hwf hq
  refine ⟨n, t, hn, hrun, ?_⟩
  rw [ht]
  exact ⟨rfl, rfl, rfl, rfl, rfl, rfl, rfl, rfl, rfl, rfl⟩

end Sys2Proof.Machine

/-! SUPPORT. The sequencer's capture against the pure function `capture`: where it stands after each answer (spec/42_capture_bits.md R131,
R140 to R145). -/

namespace Sys2Proof.Machine

/-! ## The pure functions on a list of answers (R145) -/

/-- The failure found is at an answer of the list, and no answer before it fails. -/
theorem firstFailure_eq_some {k j : Nat} {tr : List Response} (h : firstFailure k tr = some j) :
    ∃ i, ∃ hi : i < tr.length, j = k + i ∧ captureFails j tr[i] = true
      ∧ ∀ n, ∀ hn : n < i, captureFails (k + n) tr[n] = false := by
  induction tr generalizing k with
  | nil => cases h
  | cons r rest ih =>
    unfold firstFailure at h
    split at h
    next hr =>
      obtain rfl : k = j := Option.some.inj h
      exact ⟨0, Nat.succ_pos _, rfl, hr, nofun⟩
    next hr =>
      obtain ⟨i, hi, hj, hfail, hbefore⟩ := ih h
      refine ⟨i + 1, Nat.succ_lt_succ hi, by omega, hfail, fun n hn => ?_⟩
      cases n with
      | zero => exact Bool.eq_false_iff.2 hr
      | succ n =>
        rw [show k + (n + 1) = k + 1 + n by omega]
        exact hbefore n (Nat.lt_of_succ_lt_succ hn)

theorem firstFailure_eq_none {k : Nat} {tr : List Response} (h : firstFailure k tr = none) (n : Nat) (hn : n < tr.length) :
    captureFails (k + n) tr[n] = false := by
  induction tr generalizing k n with
  | nil => cases hn
  | cons r rest ih =>
    unfold firstFailure at h
    split at h
    next hr => cases h
    next hr =>
      cases n with
      | zero => exact Bool.eq_false_iff.2 hr
      | succ n =>
        rw [show k + (n + 1) = k + 1 + n by omega]
        exact ih h n (Nat.lt_of_succ_lt_succ hn)

/-- The capture's two ends: an answer that fails, none before it failing, or 83 answers of which none fails. -/
theorem capture_cases {c : Config} {m : SensorModel} {tr : List Response} {res : CaptureResult} (h : capture c m tr = some res) :
    (∃ k < 83, k < tr.length ∧ res = .timeout ∧ captureLength tr = k + 1 ∧ captureFails k (tr.getD k .timeout) = true
        ∧ ∀ n < k, captureFails n (tr.getD n .timeout) = false)
      ∨ (83 ≤ tr.length ∧ res = .frame (BitVec.ofNat 40 (frameValue c m tr)) ∧ captureLength tr = 83
        ∧ ∀ n < 83, captureFails n (tr.getD n .timeout) = false) := by
  have hget : ∀ n, ∀ hn : n < (tr.take 83).length, (tr.take 83)[n] = tr.getD n .timeout := fun n hn => by
    rw [List.getElem_take, List.getD_eq_getElem]
  have hlength : (tr.take 83).length = min 83 tr.length := List.length_take
  unfold capture at h
  unfold captureLength
  split at h
  next k hk =>
    obtain ⟨i, hi, rfl, hfail, hbefore⟩ := firstFailure_eq_some hk
    rw [Nat.zero_add] at hfail
    refine .inl ⟨i, by omega, by omega, (Option.some.inj h).symm, congrArg Nat.succ (Nat.zero_add i), hget i hi ▸ hfail, fun n hn => ?_⟩
    have hpass := hbefore n hn
    rwa [Nat.zero_add, hget] at hpass
  next hk =>
    split at h
    next hlen =>
      refine .inr ⟨hlen, (Option.some.inj h).symm, Nat.min_eq_left hlen, fun n hn => ?_⟩
      have hpass := firstFailure_eq_none hk n (by omega)
      rwa [Nat.zero_add, hget] at hpass
    next => cases h

theorem captureFails_edge (k : Nat) (l : Level) (d : Dur) :
    captureFails k (.edge l d) = true ↔ expectedLevel k ≠ none ∧ expectedLevel k ≠ some l := decide_eq_true_iff

/-! ## The frame, bit by bit (R140, R145) -/

/-- The first `n` bits of the frame, as a number. -/
def frameBits (c : Config) (m : SensorModel) (tr : List Response) (n : Nat) : Nat :=
  ((List.range n).map fun i => (classify c m (durationOf (tr.getD (4 + 2 * i) .timeout))).toNat * 2 ^ (n - 1 - i)).sum

theorem frameBits_forty (c : Config) (m : SensorModel) (tr : List Response) : frameBits c m tr 40 = frameValue c m tr := rfl

theorem frameBits_succ (c : Config) (m : SensorModel) (tr : List Response) (n : Nat) : frameBits c m tr (n + 1)
    = 2 * frameBits c m tr n + (classify c m (durationOf (tr.getD (4 + 2 * n) .timeout))).toNat := by
  have hdouble : ∀ i ∈ List.range n, (classify c m (durationOf (tr.getD (4 + 2 * i) .timeout))).toNat * 2 ^ (n - i)
      = 2 * ((classify c m (durationOf (tr.getD (4 + 2 * i) .timeout))).toNat * 2 ^ (n - 1 - i)) := fun i hi => by
    have hi : i < n := List.mem_range.1 hi
    rw [show n - i = n - 1 - i + 1 by omega, Nat.pow_succ]
    ring
  simp only [frameBits, List.range_succ, List.map_append, List.sum_append, Nat.add_sub_cancel]
  rw [List.map_congr_left hdouble, List.sum_map_mul_left]
  simp

theorem accumulate_ofNat (v : Nat) (b : BitVec 1) :
    accumulate (BitVec.ofNat 40 v) b = BitVec.ofNat 40 (2 * v + b.toNat) := by
  apply BitVec.eq_of_toNat_eq
  rw [accumulate_toNat, BitVec.toNat_ofNat, BitVec.toNat_ofNat]
  omega

/-! ## Where the sequencer stands after `k` answers (R131, R143) -/

/-- The number of bits shifted in (R27, R131). -/
def bitsAfter (k : Nat) : Nat := (k - 3) / 2

/-- The state: three segments precede the bits, which take two each. -/
def stateAfter (k : Nat) : SeqState :=
  match k with
  | 0 => .capLead
  | 1 => .capAckLow
  | 2 => .capAckHigh
  | k + 3 => if k % 2 = 0 then afterBit (BitVec.ofNat 6 (k / 2)) else .capBitHigh

/-- `s` with `STATE`, `SR` and `BITCNT` as they are after the first `k` answers of `tr`. -/
def capturedAfter (tr : List Response) (k : Nat) (s : State) : State :=
  { s with state := stateAfter k, sr := BitVec.ofNat 40 (frameBits s.cfg s.model tr (bitsAfter k)),
           bitcnt := BitVec.ofNat 6 (bitsAfter k) }

theorem bitsAfter_low (n : Nat) : bitsAfter (3 + 2 * n) = n := by unfold bitsAfter; omega

theorem bitsAfter_high (n : Nat) : bitsAfter (4 + 2 * n) = n := by unfold bitsAfter; omega

theorem stateAfter_low (n : Nat) : stateAfter (3 + 2 * n) = afterBit (BitVec.ofNat 6 n) := by
  rw [Nat.add_comm]
  simp [stateAfter]

theorem stateAfter_high (n : Nat) : stateAfter (4 + 2 * n) = .capBitHigh := by
  rw [show 4 + 2 * n = 2 * n + 1 + 3 by omega]
  simp [stateAfter]

theorem afterBit_of_lt {n : Nat} (hn : n < 40) : afterBit (BitVec.ofNat 6 n) = .capBitLow :=
  if_neg fun h => by
    have h : n % 64 = 40 := congrArg BitVec.toNat h
    omega

theorem expectedLevel_low (n : Nat) : expectedLevel (3 + 2 * n) = some .low := by
  rw [expectedLevel, if_neg (by omega), if_pos (by omega)]

theorem expectedLevel_high (n : Nat) : expectedLevel (4 + 2 * n) = some .high := by
  rw [expectedLevel, if_neg (by omega), if_neg (by omega)]

/-- The 83 answers: the leading segment, the two of the acknowledge, and two for each bit. -/
theorem answer_cases {k : Nat} (hk : k < 83) :
    k = 0 ∨ k = 1 ∨ k = 2 ∨ (∃ n < 40, k = 3 + 2 * n) ∨ ∃ n < 40, k = 4 + 2 * n := by
  by_cases h : k < 3
  · omega
  · obtain hodd | heven := Nat.mod_two_eq_zero_or_one (k - 3)
    · exact .inr (.inr (.inr (.inl ⟨(k - 3) / 2, by omega, by omega⟩)))
    · exact .inr (.inr (.inr (.inr ⟨(k - 4) / 2, by omega, by omega⟩)))

theorem isCaptureState_stateAfter {k : Nat} (hk : k < 83) : isCaptureState (stateAfter k) = true := by
  obtain rfl | rfl | rfl | ⟨n, hn, rfl⟩ | ⟨n, -, rfl⟩ := answer_cases hk
  · rfl
  · rfl
  · rfl
  · rw [stateAfter_low, afterBit_of_lt hn]
    rfl
  · rw [stateAfter_high]
    rfl

/-- The pure function fails an EDGE exactly where the sequencer's state rejects its level (R134 to R138, R145). -/
theorem captureFails_edge_iff {k : Nat} (hk : k < 83) (l : Level) (d : Dur) :
    captureFails k (.edge l d) = true ↔ rejectsLevel (stateAfter k) l := by
  rw [captureFails_edge]
  obtain rfl | rfl | rfl | ⟨n, hn, rfl⟩ | ⟨n, -, rfl⟩ := answer_cases hk
  · cases l <;> simp [expectedLevel, rejectsLevel, stateAfter]
  · cases l <;> simp [expectedLevel, rejectsLevel, stateAfter]
  · cases l <;> simp [expectedLevel, rejectsLevel, stateAfter]
  · rw [expectedLevel_low, stateAfter_low, afterBit_of_lt hn]
    cases l <;> simp [rejectsLevel]
  · rw [expectedLevel_high, stateAfter_high]
    cases l <;> simp [rejectsLevel]

/-! ## The `respond` step on one answer -/

/-- An answer that fails the capture fails the attempt. -/
theorem responded_failed {tr : List Response} {k : Nat} {r : Response} (hk : k < 83) (hr : r ≠ .ack)
    (hfail : captureFails k r = true) (s : State) :
    ∃ t, Responded r (capturedAfter tr k s) t ∧ t.state = .attDone ∧ t.attRes = .timeout := by
  have hq : isCaptureState (capturedAfter tr k s).state = true := isCaptureState_stateAfter hk
  cases r with
  | ack => exact absurd rfl hr
  | timeout => exact ⟨_, .timeout hq rfl rfl, rfl, rfl⟩
  | edge l d =>
    obtain ⟨t, ht⟩ := respondIn_capture_answers (r := .edge l d) hq nofun
    have hresp : Responded (.edge l d) (capturedAfter tr k s) t := respondIn_next ht
    obtain ⟨-, hdone, htimeout, -⟩ := responded_edge hresp
    have hstate : t.state = .attDone := hdone.2 ((captureFails_edge_iff hk l d).1 hfail)
    exact ⟨t, hresp, hstate, htimeout hstate⟩

/-- Every other answer leads on, and a high phase of a bit is shifted in. -/
theorem responded_passed {tr : List Response} {k : Nat} (hk : k < 83) {r : Response} (hget : tr.getD k .timeout = r)
    (hr : r ≠ .ack) (hpass : captureFails k r = false) (s : State) :
    ∃ t, Responded r (capturedAfter tr k s) t ∧ t = { capturedAfter tr (k + 1) s with pend := false, trace := t.trace } := by
  cases r with
  | ack => exact absurd rfl hr
  | timeout => cases hpass
  | edge l d =>
    have hlevel : expectedLevel k = none ∨ expectedLevel k = some l := by
      by_contra hne
      exact Bool.eq_false_iff.1 hpass ((captureFails_edge k l d).2 (not_or.1 hne))
    obtain rfl | rfl | rfl | ⟨n, hn, rfl⟩ | ⟨n, hn, rfl⟩ := answer_cases hk
    · exact ⟨_, .lead l d rfl rfl rfl, rfl⟩
    · obtain rfl : Level.low = l := by simpa [expectedLevel] using hlevel
      exact ⟨_, .ackLow d rfl rfl rfl, rfl⟩
    · obtain rfl : Level.high = l := by simpa [expectedLevel] using hlevel
      exact ⟨_, .ackHigh d rfl rfl rfl, rfl⟩
    · obtain rfl : Level.low = l := by simpa [expectedLevel_low] using hlevel
      refine ⟨_, .bitLow d ((stateAfter_low n).trans (afterBit_of_lt hn)) rfl rfl, ?_⟩
      simp only [capturedAfter, show 3 + 2 * n + 1 = 4 + 2 * n by omega, stateAfter_high, bitsAfter_low, bitsAfter_high]
      rfl
    · obtain rfl : Level.high = l := by simpa [expectedLevel_high] using hlevel
      refine ⟨_, .bitHigh d (stateAfter_high n) rfl rfl, ?_⟩
      have hsr : accumulate (BitVec.ofNat 40 (frameBits s.cfg s.model tr n)) (classify s.cfg s.model d)
          = BitVec.ofNat 40 (frameBits s.cfg s.model tr (n + 1)) := by
        rw [accumulate_ofNat, frameBits_succ, hget]
        rfl
      simp only [capturedAfter, show 4 + 2 * n + 1 = 3 + 2 * (n + 1) by omega, stateAfter_low, bitsAfter_low, bitsAfter_high,
        BitVec.ofNat_add]
      simp only [shiftBit, appendTrace, hsr]
      rfl

end Sys2Proof.Machine

/-! SUPPORT. The run of a whole capture (spec/42_capture_bits.md R141, R145). -/

namespace Sys2Proof.Machine

/-- A run goes on from where its first part ends. -/
theorem run_add {m : Nat} {s t : State} (h : Sys2Proof.core.run m s = .next t) (n : Nat) :
    Sys2Proof.core.run (m + n) s = Sys2Proof.core.run n t := by
  induction m generalizing s with
  | zero =>
    cases h
    rw [Nat.zero_add]
  | succ m ih =>
    cases hst : step s with
    | next u =>
      rw [Nat.add_right_comm, run_succ hst]
      exact ih ((run_succ hst m).symm.trans h)
    | fault _ | refused _ =>
      have hst : Sys2Proof.core.step s = _ := hst
      simp only [Host.Core.run, hst, reduceCtorEq] at h

/-- The word of the capture's command (R130). -/
def waitWord (s : State) : Word := encode (.waitEdge s.pin s.cfg.edgeTimeoutUs)

/-- The issue of WAIT_EDGE and the answer to it, two steps (R12). -/
theorem run_answered_wait {s t : State} {r : Response} {rest : List Word} (hwf : s.cfg.wf = true) (hp : s.pend = false)
    (hq : isCaptureState s.state = true) (hc : s.crsp = responseWord r :: rest) (hf : r.instr.fits s.cfg = true)
    (hr : Responded r { s with pend := true, ccmd := s.ccmd ++ [waitWord s], crsp := rest } t) :
    Sys2Proof.core.run 2 s = .next t := by
  have hissue : step s = .next (issueWaitEdge s.pin s.cfg.edgeTimeoutUs s) :=
    step_issue hwf hp (commandOf_eq_waitEdge.2 ⟨rfl, rfl, hq⟩)
  have hcmd : isCommandState s.state = true := isCommandState_of_commandOf (commandOf_eq_waitEdge.2 ⟨rfl, rfl, hq⟩)
  have hanswer : step (issueWaitEdge s.pin s.cfg.edgeTimeoutUs s) = .next t :=
    step_of_transition hwf (.respond _ rest r hcmd rfl hc (Laws.decodeResponseFor_responseWord hf) hr)
  exact (run_succ hissue 1).trans (run_succ hanswer 0)

/-- The start of a capture, with the answers `tr`, their durations of `DUR_W` bits, on offer, and `rest` behind them (R205). -/
structure CaptureOffered (s : State) (tr : List Response) (rest : List Word) : Prop where
  wf : s.cfg.wf = true
  state : s.state = .capLead
  pend : s.pend = false
  sr : s.sr = 0
  bitcnt : s.bitcnt = 0
  answers : ∀ r ∈ tr, r ≠ .ack ∧ (durationOf r).toNat < 2 ^ s.cfg.durW
  crsp : s.crsp = tr.map responseWord ++ rest

/-- `s` after `k` answers of `tr`, `rest` being what is offered behind them: `k` commands issued and `k` answers taken. -/
def afterAnswers (tr : List Response) (rest : List Word) (k : Nat) (s : State) : State :=
  { s with ccmd := s.ccmd ++ List.replicate k (waitWord s), crsp := (tr.drop k).map responseWord ++ rest }

theorem fits_of_durationOf {c : Config} {r : Response} (h : (durationOf r).toNat < 2 ^ c.durW) : r.instr.fits c = true := by
  cases r with
  | ack | timeout => rfl
  | edge l d => exact (Laws.durFits_iff c d).2 h

section
variable {s : State} {tr : List Response} {rest : List Word} (h : CaptureOffered s tr rest) {k : Nat}
include h

theorem CaptureOffered.answer (hlen : k < tr.length) :
    tr.getD k .timeout ≠ .ack ∧ (durationOf (tr.getD k .timeout)).toNat < 2 ^ s.cfg.durW := by
  rw [List.getD_eq_getElem _ _ hlen]
  exact h.answers _ (List.getElem_mem hlen)

/-- The command and the answer number `k`, from where the answers before it have led. -/
theorem run_answer {t : State} {g : List Segment} (hk : k < 83) (hlen : k < tr.length)
    (hr : Responded (tr.getD k .timeout)
      { capturedAfter tr k (afterAnswers tr rest (k + 1) s) with pend := true, trace := g } t) :
    Sys2Proof.core.run 2 { capturedAfter tr k (afterAnswers tr rest k s) with trace := g } = .next t := by
  have hc : (tr.drop k).map responseWord ++ rest
      = responseWord (tr.getD k .timeout) :: ((tr.drop (k + 1)).map responseWord ++ rest) := by
    rw [List.drop_eq_getElem_cons hlen, List.getD_eq_getElem _ _ hlen]
    rfl
  refine run_answered_wait h.wf h.pend (isCaptureState_stateAfter hk) hc (fits_of_durationOf (h.answer hlen).2) ?_
  have hccmd : s.ccmd ++ List.replicate k (waitWord s) ++ [waitWord s] = s.ccmd ++ List.replicate (k + 1) (waitWord s) := by
    rw [List.append_assoc, ← List.replicate_succ']
  simp only [capturedAfter, afterAnswers, ← hccmd] at hr
  exact hr

/-- The answers before the first failure, two steps for each. -/
theorem run_passed (hk : k ≤ 83) (hlen : k ≤ tr.length)
    (hpass : ∀ n < k, captureFails n (tr.getD n .timeout) = false) :
    ∃ g, Sys2Proof.core.run (2 * k) s = .next { capturedAfter tr k (afterAnswers tr rest k s) with trace := g } := by
  induction k with
  | zero =>
    refine ⟨s.trace, congrArg Host.Outcome.next ?_⟩
    obtain ⟨-, hq, -, hsr, hbit, -, hc⟩ := h
    have hsame : s = { s with state := .capLead, sr := 0, bitcnt := 0, crsp := tr.map responseWord ++ rest } := by
      rw [← hq, ← hsr, ← hbit, ← hc]
    exact hsame.trans (by simp [capturedAfter, afterAnswers, stateAfter, bitsAfter, frameBits])
  | succ k ih =>
    obtain ⟨g, hrun⟩ := ih (by omega) (by omega) fun n hn => hpass n (by omega)
    obtain ⟨t, hr, ht⟩ := responded_passed hk rfl (h.answer hlen).1 (hpass k (Nat.lt_succ_self k))
      { afterAnswers tr rest (k + 1) s with pend := true, trace := g }
    refine ⟨t.trace, (run_add hrun 2).trans ((run_answer h hk hlen hr).trans (congrArg Host.Outcome.next ?_))⟩
    rw [ht, capturedAfter, capturedAfter, ← h.pend]
    rfl

end

/-- How a capture ends, by the result of the pure function (R141, R145). -/
def CaptureEnds (res : CaptureResult) (t : State) : Prop :=
  match res with
  | .timeout => t.state = .attDone ∧ t.attRes = .timeout
  | .frame f => t.state = .check ∧ t.sr = f ∧ t.bitcnt = 40

/-- The run of a capture ends as the pure function says, and touches beside `STATE`, the ports and the line the capture's registers and
`ATT_RES` only. -/
theorem run_capture {s : State} {tr : List Response} {rest : List Word} (h : CaptureOffered s tr rest) {res : CaptureResult}
    (hres : capture s.cfg s.model tr = some res) :
    ∃ t, Sys2Proof.core.run (2 * captureLength tr) s = .next t ∧ CaptureEnds res t
      ∧ t = { afterAnswers tr rest (captureLength tr) s with
                state := t.state, sr := t.sr, bitcnt := t.bitcnt, attRes := t.attRes, trace := t.trace, lines := t.lines } := by
  obtain ⟨k, hk, hlen, rfl, hlength, hfail, hpass⟩ | ⟨hlen, rfl, hlength, hpass⟩ := capture_cases hres
  · obtain ⟨g, hrun⟩ := run_passed h hk.le hlen.le hpass
    obtain ⟨t, hr, hend⟩ := responded_failed (tr := tr) hk (h.answer hlen).1 hfail
      { afterAnswers tr rest (k + 1) s with pend := true, trace := g }
    rw [hlength]
    refine ⟨t, (run_add hrun 2).trans (run_answer h hk hlen hr), hend, ?_⟩
    rw [responded_frame hr, ← h.pend]
    rfl
  · obtain ⟨g, hrun⟩ := run_passed h le_rfl hlen hpass
    rw [hlength]
    exact ⟨_, hrun, ⟨rfl, rfl, rfl⟩, rfl⟩

/-- Settles O23: the run of the capture, its commands spelled as R130 spells them. -/
theorem sequencerComputesCapture : Obligations.SequencerComputesCapture := by
  intro s tr rest hwf hq hp hsr hbit hans hc res hres
  obtain ⟨t, hrun, hend, ht⟩ := run_capture ⟨hwf, hq, hp, hsr, hbit, hans, hc⟩ hres
  refine ⟨t, hrun, by cases res <;> exact hend, ?_⟩
  rw [ht, Laws.waitWord_eq]
  exact ⟨hp, rfl, rfl⟩

/-! ## The run of a whole attempt (R124, R145, R196) -/

/-- The result of an attempt, by the result of its capture (R196). -/
def attemptResult (c : Config) (m : SensorModel) (res : CaptureResult) : AttRes :=
  match res with
  | .timeout => .timeout
  | .frame f => frameResult c m f

/-- The capture and, on a complete frame, the run from `CHECK`: neither touches the operands, the attempt count or the published result. -/
theorem run_capture_result {s : State} {tr : List Response} {rest : List Word} (h : CaptureOffered s tr rest) {res : CaptureResult}
    (hres : capture s.cfg s.model tr = some res) :
    ∃ (n : Nat) (t : State), Sys2Proof.core.run n s = .next t
      ∧ t = { afterAnswers tr rest (captureLength tr) s with
                state := .attDone, attRes := attemptResult s.cfg s.model res, sr := t.sr, bitcnt := t.bitcnt, h10 := t.h10,
                tNeg := t.tNeg, tMag := t.tMag, humF := t.humF, tempF := t.tempF, trace := t.trace, lines := t.lines } := by
  obtain ⟨u, hrun, hend, hu⟩ := run_capture h hres
  cases res with
  | timeout =>
    obtain ⟨hq, hk⟩ := hend
    refine ⟨_, u, hrun, ?_⟩
    rw [hq, hk] at hu
    rw [hu]
    rfl
  | frame f =>
    obtain ⟨hq, hsr, -⟩ := hend
    have hwf : u.cfg.wf = true := by
      rw [hu]
      exact h.wf
    obtain ⟨n, t, -, hcheck, ht⟩ := run_check hwf hq
    refine ⟨_, t, (run_add hrun n).trans hcheck, ?_⟩
    rw [ht, hsr, hu]
    rfl

/-- The run of the handshake, from `ATT_START` to the start of the capture (R110, R124). -/
theorem run_handshake {s : State} {rest : List Word} (hwf : s.cfg.wf = true) (hq : s.state = .attStart) (hp : s.pend = false)
    (hr : s.crsp = List.replicate 7 0x00000000 ++ rest) :
    ∃ t : State, Sys2Proof.core.run 15 s = .next t ∧ t = { startAttempt s with
      state := .capLead, crsp := rest, ccmd := s.ccmd ++ handshakeStates.filterMap (wordIn s), lines := t.lines } := by
  have hstart : step s = .next (startAttempt s) := step_of_state hwf hq
  obtain ⟨t, hrun, ht⟩ := run_ackChain (qs := handshakeStates) (last := .capLead) (s := startAttempt s) (by decide) hwf hp rfl hr
  exact ⟨t, (run_succ hstart 14).trans hrun, ht⟩

/-- Settles O33: the handshake, the capture and, on a complete frame, the run from `CHECK`, each with its frame. -/
theorem attemptComputesItsResult : Obligations.AttemptComputesItsResult := by
  intro s tr rest res hwf hq hp hans hc hres
  obtain ⟨u, hrunU, hu⟩ := run_handshake hwf hq hp hc
  have hlen : u.ccmd.length = s.ccmd.length + 7 := by
    rw [hu, handshake_words]
    simp
  have hkept : u.cfg = s.cfg ∧ u.attempts = s.attempts + 1 ∧ u.model = s.model ∧ u.pin = s.pin ∧ u.rs = s.rs := by
    rw [hu]
    exact ⟨rfl, rfl, rfl, rfl, rfl⟩
  obtain ⟨hcfg, hattempts, hmodel, hpin, hrs⟩ := hkept
  have hoffered : CaptureOffered u tr rest := by
    rw [hu]
    exact ⟨hwf, rfl, hp, rfl, rfl, hans, rfl⟩
  obtain ⟨n, t, hrunT, ht⟩ := run_capture_result hoffered (hcfg ▸ hmodel ▸ hres)
  refine ⟨15 + n, t, (run_add hrunU n).trans hrunT, ?_⟩
  rw [ht]
  refine ⟨rfl, hoffered.pend, ?_, hattempts, hmodel, hpin, hrs, ?_, rfl⟩
  · rw [hcfg, hmodel]
    cases res <;> rfl
  · simp [afterAnswers, hlen]

end Sys2Proof.Machine

/-! SUPPORT. `CHECK` and the checksum of a frame (spec/43_checksum.md R150 to R152). -/

namespace Sys2Proof.Machine

/-! ## The bytes of a number, counted from its low end -/

/-- Byte `i` of a number: of a frame's, byte 0 is `CK` and byte 4 is `HH` (R28). -/
def byteAt (n i : Nat) : Nat := n / 2 ^ (8 * i) % 2 ^ 8

theorem byteAt_lt (n i : Nat) : byteAt n i < 256 := Nat.mod_lt _ (by decide)

/-- Two numbers that differ at most in byte `j` have every other byte in common. -/
theorem byteAt_eq_of_eq_elsewhere {m n i j : Nat} (habove : m / 2 ^ (8 * j + 8) = n / 2 ^ (8 * j + 8))
    (hbelow : m % 2 ^ (8 * j) = n % 2 ^ (8 * j)) (hij : i ≠ j) : byteAt m i = byteAt n i := by
  unfold byteAt
  obtain hlt | hgt := Nat.lt_or_gt_of_ne hij
  · have hdvd : 2 ^ (8 * i + 8) ∣ 2 ^ (8 * j) := Nat.pow_dvd_pow 2 (by omega)
    simp only [← Nat.mod_mul_right_div_self, ← Nat.pow_add]
    rw [← Nat.mod_mod_of_dvd m hdvd, hbelow, Nat.mod_mod_of_dvd n hdvd]
  · obtain ⟨d, hd⟩ := Nat.exists_eq_add_of_le (show 8 * j + 8 ≤ 8 * i by omega)
    simp only [hd, Nat.pow_add 2 (8 * j + 8) d, ← Nat.div_div_eq_div_mul, habove]

/-- A number is given by its byte `j` and the bits above and below it. -/
theorem eq_of_byteAt_eq {m n j : Nat} (habove : m / 2 ^ (8 * j + 8) = n / 2 ^ (8 * j + 8))
    (hbelow : m % 2 ^ (8 * j) = n % 2 ^ (8 * j)) (hbyte : byteAt m j = byteAt n j) : m = n := by
  rw [Nat.pow_add, ← Nat.div_div_eq_div_mul, ← Nat.div_div_eq_div_mul] at habove
  exact Nat.ext_div_mod (Nat.ext_div_mod habove hbyte) hbelow

/-! ## The checksum of a frame -/

/-- `CK_OK` on the bytes of the frame, as numbers (R151). -/
theorem frameOk_iff_byteAt (f : Frame) : frameOk f = true ↔
    (byteAt f.toNat 4 + byteAt f.toNat 3 + byteAt f.toNat 2 + byteAt f.toNat 1) % 256 = byteAt f.toNat 0 := by
  simp only [frameOk, checksum, decide_eq_true_eq, ← BitVec.toNat_inj, BitVec.toNat_ofNat, Nat.mod_mod, byteHH, byteHL, byteTH,
    byteTL, byteCK, Laws.toNat_bits]
  rfl

/-- The same with the bytes written out; the top one needs no reduction, for nothing stands above it. -/
theorem frameOk_iff (f : Frame) : frameOk f = true ↔
    (f.toNat / 2 ^ 32 + f.toNat / 2 ^ 24 % 256 + f.toNat / 2 ^ 16 % 256 + f.toNat / 2 ^ 8 % 256) % 256 = f.toNat % 256 := by
  have hHH : byteAt f.toNat 4 = f.toNat / 2 ^ 32 := Nat.mod_eq_of_lt (Nat.div_lt_of_lt_mul f.isLt)
  have hCK : byteAt f.toNat 0 = f.toNat % 256 := congrArg (· % 256) (Nat.div_one _)
  rw [frameOk_iff_byteAt, hHH, hCK]
  rfl

/-- Two frames that differ at most in one byte and both pass are the same: the byte occurs once in the equation modulo 256, so the other
four fix it (R152). -/
theorem eq_of_frameOk_of_eq_elsewhere {f g : Frame} {j : Nat} (hj : j ≤ 4)
    (habove : f.toNat / 2 ^ (8 * j + 8) = g.toNat / 2 ^ (8 * j + 8)) (hbelow : f.toNat % 2 ^ (8 * j) = g.toNat % 2 ^ (8 * j))
    (hf : frameOk f = true) (hg : frameOk g = true) : f = g := by
  have hother (i : Nat) (hi : i ≠ j) : byteAt f.toNat i = byteAt g.toNat i := byteAt_eq_of_eq_elsewhere habove hbelow hi
  have hflt := byteAt_lt f.toNat j
  have hglt := byteAt_lt g.toNat j
  rw [frameOk_iff_byteAt] at hf hg
  refine BitVec.eq_of_toNat_eq (eq_of_byteAt_eq habove hbelow ?_)
  clear habove hbelow
  interval_cases j <;> simp (disch := decide) only [hother] at hf <;> omega

/-! ## `CHECK` -/

/-- `CHECK` decides by `CK_OK` and writes nothing but `STATE` and, on a mismatch, `ATT_RES` (R150). -/
theorem exec_check (s : State) : exec .check s = .next
    (if frameOk s.sr = true then { s with state := .convert }
      else { s with attRes := .checksumMismatch, state := .attDone }) :=
  (apply_ite Host.Outcome.next ..).symm

/-- Settles O24: `CK_OK`, by which `CHECK` decides, is the equation on the bytes of the number in `SR`. -/
theorem checksumDecides : Obligations.ChecksumDecides := by
  intro s
  rw [exec_check, if_congr (frameOk_iff s.sr) rfl rfl]

/-- A frame that `CHECK` passes on to `CONVERT` has its checksum right. -/
theorem frameOk_of_exec_check {s : State} (h : exec .check s = .next { s with state := .convert }) : frameOk s.sr = true := by
  by_contra hk
  rw [exec_check, if_neg hk] at h
  cases congrArg State.state (Host.Outcome.next.inj h)

/-- One byte of a frame that passes changed, in any state: `CHECK` fails the other frame (R152). -/
theorem exec_check_of_one_byte_changed {s t : State} {j : Nat} (hj : j ≤ 4)
    (habove : s.sr.toNat / 2 ^ (8 * j + 8) = t.sr.toNat / 2 ^ (8 * j + 8))
    (hbelow : s.sr.toNat % 2 ^ (8 * j) = t.sr.toNat % 2 ^ (8 * j))
    (hne : s.sr ≠ t.sr) (hs : exec .check s = .next { s with state := .convert }) :
    exec .check t = .next { t with attRes := .checksumMismatch, state := .attDone } := by
  have ht : ¬frameOk t.sr = true := fun ht =>
    hne (eq_of_frameOk_of_eq_elsewhere hj habove hbelow (frameOk_of_exec_check hs) ht)
  rw [exec_check, if_neg ht]

/-- Settles O25: the checksum byte is byte 0, with nothing below it. -/
theorem checksumDetectsOneByte : Obligations.ChecksumDetectsOneByte := by
  refine ⟨fun s t hdata hne hs => ?_, fun s t j _ hj habove hbelow hne hs => ?_⟩
  · have hbelow : s.sr.toNat % 1 = t.sr.toNat % 1 := by rw [Nat.mod_one, Nat.mod_one]
    exact exec_check_of_one_byte_changed (j := 0) (by decide) hdata hbelow hne hs
  · exact exec_check_of_one_byte_changed hj habove hbelow hne hs

end Sys2Proof.Machine

/-! SUPPORT. `fl(n / 10)`: the rounded significand is the nearest one, never carries, and rises with `n`
(spec/44_convert_gate.md R162, R163, R166). -/

namespace Sys2Proof.Machine

/-! ## The rounding (R162, R163 (a)) -/

theorem magScale_le_of_le {m n : Nat} (hm : m ≠ 0) (hmn : m ≤ n) : magScale m ≤ magScale n := by
  obtain ⟨hlo, -⟩ := two_pow_magScale hm
  obtain ⟨-, hhi⟩ := two_pow_magScale (n := n) (by omega)
  have hlt : 2 ^ magScale m < 2 ^ (magScale n + 1) := by omega
  exact Nat.le_of_lt_succ ((Nat.pow_lt_pow_iff_right (by decide)).1 hlt)

section
variable {frac n : Nat} (hn : n ≠ 0) (hle : n ≤ 65535) (hfrac : 20 ≤ frac)
include hn hle hfrac

/-- One is this many units of the significand. The number is a multiple of 256: even, so that no tie occurs, and large enough that no carry
does. -/
theorem exists_magScale_unit : ∃ u, 1 ≤ u ∧ 2 ^ (frac + 4 - magScale n) = 256 * u := by
  have hk : magScale n ≤ 16 := magScale_le hn hle
  refine ⟨2 ^ (frac + 4 - magScale n - 8), Nat.two_pow_pos _, ?_⟩
  rw [show (256 : Nat) = 2 ^ 8 by rfl, ← Nat.pow_add, Nat.add_sub_cancel' (by omega)]

/-- The significand is strictly nearest to `n / 10` in its unit: in tenths of the unit `n / 10` is an even number, and a tie would end in
the digit 5 (R163 (a)). -/
theorem magSignificand_nearest : 10 * magSignificand frac n < n * 2 ^ (frac + 4 - magScale n) + 5
    ∧ n * 2 ^ (frac + 4 - magScale n) < 10 * magSignificand frac n + 5 := by
  obtain ⟨u, -, hu⟩ := exists_magScale_unit hn hle hfrac
  have heven : n * 2 ^ (frac + 4 - magScale n) = 2 * (n * (128 * u)) := by rw [hu]; ring
  unfold magSignificand
  generalize n * (128 * u) = x at heven
  split <;> omega

/-- The carry that `mag` provides for never occurs (R162): `16 * n` is an integer below `20 * 2^k`, and by the 1 that it stays below,
`n / 10` is more than half a unit below the next power of two. -/
theorem magSignificand_lt : magSignificand frac n < 2 ^ (frac + 1) := by
  obtain ⟨-, hhi⟩ := two_pow_magScale hn
  obtain ⟨u, hu1, hu⟩ := exists_magScale_unit hn hle hfrac
  obtain ⟨-, hpk⟩ := magScale_unit hn hle (Nat.le_trans (by decide) hfrac)
  obtain ⟨hnear, -⟩ := magSignificand_nearest hn hle hfrac
  rw [hu] at hnear hpk
  have hscaled : u * (16 * n + 1) ≤ u * (20 * 2 ^ magScale n) := Nat.mul_le_mul_left u hhi
  have hx : n * (256 * u) + 16 * u ≤ 20 * 2 ^ frac := by linarith
  omega

/-- Without the carry the fields are the scale and the significand less its leading one. -/
theorem magFields_eq (bias : Nat) : magFields frac bias n = (magScale n + bias - 4, magSignificand frac n - 2 ^ frac) :=
  if_neg (magSignificand_lt hn hle hfrac).ne

/-- The fields of `fl(n / 10)` give a normal number strictly nearest to `n / 10`, in units of `2^-(frac + bias)` (R161 to R163 (a)). -/
theorem exists_fields_nearest {bias total : Nat} (hbias : 4 ≤ bias) (htotal : frac + bias = total) :
    ∃ e f, mag frac bias n = e * 2 ^ frac + f ∧ f < 2 ^ frac ∧ bias - 4 ≤ e ∧ e ≤ bias + 12
      ∧ 20 * ((2 ^ frac + f) * 2 ^ e) < 2 * (n * 2 ^ total) + 10 * 2 ^ e
      ∧ 2 * (n * 2 ^ total) < 20 * ((2 ^ frac + f) * 2 ^ e) + 10 * 2 ^ e := by
  have hk : magScale n ≤ 16 := magScale_le hn hle
  obtain ⟨hlo, -⟩ := magSignificand_bounds hn hle (Nat.le_trans (by decide) hfrac)
  have hhi := magSignificand_lt hn hle hfrac
  obtain ⟨hbelow, habove⟩ := magSignificand_nearest hn hle hfrac
  have hfields := mag_eq_fields hn frac bias
  rw [magFields_eq hn hle hfrac] at hfields
  refine ⟨_, _, hfields, by omega, by dsimp only; omega, by dsimp only; omega, ?_⟩
  dsimp only
  have hscale : 2 ^ total = 2 ^ (frac + 4 - magScale n) * 2 ^ (magScale n + bias - 4) := by
    rw [← Nat.pow_add]
    congr 1
    omega
  have hunit : 0 < 2 ^ (magScale n + bias - 4) := Nat.two_pow_pos _
  rw [Nat.add_sub_cancel' hlo, hscale]
  have hbelow := Nat.mul_lt_mul_of_pos_right hbelow hunit
  have habove := Nat.mul_lt_mul_of_pos_right habove hunit
  constructor <;> linarith

end

/-! ## Monotony (R163 (c)) -/

section
variable {frac bias n : Nat} (hle : n ≤ 65535) (hfrac : 20 ≤ frac)
include hle hfrac

theorem mag_add_two_pow (hn : n ≠ 0) :
    mag frac bias n + 2 ^ frac = (magScale n + bias - 4) * 2 ^ frac + magSignificand frac n := by
  obtain ⟨hlo, -⟩ := magSignificand_bounds hn hle (Nat.le_trans (by decide) hfrac)
  rw [mag_eq_fields hn, magFields_eq hn hle hfrac, Nat.add_assoc, Nat.sub_add_cancel hlo]

/-- At one scale the significands rise: a tenth is more than one unit. -/
theorem magSignificand_lt_magSignificand {m : Nat} (hm : m ≠ 0) (hmn : m < n) (hk : magScale m = magScale n) :
    magSignificand frac m < magSignificand frac n := by
  have hn : n ≠ 0 := Nat.ne_zero_of_lt hmn
  obtain ⟨hbelow, -⟩ := magSignificand_nearest hm (hmn.le.trans hle) hfrac
  obtain ⟨-, habove⟩ := magSignificand_nearest hn hle hfrac
  obtain ⟨hp, -⟩ := magScale_unit hn hle (Nat.le_trans (by decide) hfrac)
  rw [hk] at hbelow
  have hstep : (m + 1) * 2 ^ (frac + 4 - magScale n) ≤ n * 2 ^ (frac + 4 - magScale n) := Nat.mul_le_mul_right _ hmn
  rw [Nat.add_mul, Nat.one_mul] at hstep
  omega

/-- The patterns rise: at one scale by the significand, else by the exponent field. -/
theorem mag_lt_mag {m : Nat} (hbias : 5 ≤ bias) (hmn : m < n) : mag frac bias m < mag frac bias n := by
  have hn : n ≠ 0 := Nat.ne_zero_of_lt hmn
  have hvn := mag_add_two_pow (bias := bias) hle hfrac hn
  obtain ⟨hlo, -⟩ := magSignificand_bounds hn hle (Nat.le_trans (by decide) hfrac)
  by_cases hm : m = 0
  · have hexp : 1 * 2 ^ frac ≤ (magScale n + bias - 4) * 2 ^ frac := Nat.mul_le_mul_right _ (by omega)
    have hpos : 0 < 2 ^ frac := Nat.two_pow_pos frac
    rw [hm, mag_zero]
    omega
  have hvm := mag_add_two_pow (bias := bias) (hmn.le.trans hle) hfrac hm
  obtain hk | hk := (magScale_le_of_le hm hmn.le).eq_or_lt
  · have hsig := magSignificand_lt_magSignificand hle hfrac hm hmn hk
    rw [hk] at hvm
    omega
  · have hexp : (magScale m + bias - 4 + 1) * 2 ^ frac ≤ (magScale n + bias - 4) * 2 ^ frac :=
      Nat.mul_le_mul_right _ (by omega)
    have hsig := magSignificand_lt hm (hmn.le.trans hle) hfrac
    rw [Nat.add_mul, Nat.one_mul] at hexp
    rw [Nat.pow_succ] at hsig
    omega

end

/-! ## The patterns in their registers (R162, R166) -/

theorem mag32_toNat {n : Nat} (hle : n ≤ 65535) : (mag32 n).toNat = mag 23 127 n := by
  obtain ⟨e, f, hmag, he, hf, -⟩ := exists_fields_mag (frac := 23) (bias := 127) (maxExp := 255) hle
    (by decide) (by decide) (by decide)
  rw [mag32, BitVec.toNat_ofNat, Nat.mod_eq_of_lt]
  omega

theorem mag64_toNat {n : Nat} (hle : n ≤ 65535) : (mag64 n).toNat = mag 52 1023 n := by
  obtain ⟨e, f, hmag, he, hf, -⟩ := exists_fields_mag (frac := 52) (bias := 1023) (maxExp := 2047) hle
    (by decide) (by decide) (by decide)
  rw [mag64, BitVec.toNat_ofNat, Nat.mod_eq_of_lt]
  omega

/-- Settles O28: the registers' fields are those of `fl(n / 10)`, which are strictly nearest. -/
theorem floatIsNearest : Obligations.FloatIsNearest := by
  refine ⟨fun sg n hn hle => ?binary32, fun sg n hn hle => ?binary64, fun sg => ?zero⟩
  case binary32 =>
    obtain ⟨e, f, hmag, hf, hlo, hhi, hnear⟩ := exists_fields_nearest (frac := 23) (bias := 127) (total := 150)
      (Nat.pos_iff_ne_zero.1 hn) hle (by decide) (by decide) rfl
    obtain ⟨hsign, hexp, hfraction⟩ := fields32 sg (b := (sg.setWidth 32 <<< 31) ||| mag32 n) (by rw [mag32, hmag])
      (by omega) hf
    refine ⟨_, rfl, ?_⟩
    rw [hexp, hfraction]
    exact ⟨hsign, hlo, hhi, hnear⟩
  case binary64 =>
    obtain ⟨e, f, hmag, hf, hlo, hhi, hnear⟩ := exists_fields_nearest (frac := 52) (bias := 1023) (total := 1075)
      (Nat.pos_iff_ne_zero.1 hn) hle (by decide) (by decide) rfl
    obtain ⟨hsign, hexp, hfraction⟩ := fields64 sg (b := (sg.setWidth 64 <<< 63) ||| mag64 n) (by rw [mag64, hmag])
      (by omega) hf
    refine ⟨_, rfl, ?_⟩
    rw [hexp, hfraction]
    exact ⟨hsign, hlo, hhi, hnear⟩
  case zero => exact ⟨congrArg FloatVal.binary32 BitVec.or_zero, congrArg FloatVal.binary64 BitVec.or_zero⟩

/-- Settles O29: in each format the registers hold `mag`, which rises. -/
theorem floatMonotone : Obligations.FloatMonotone := by
  intro m n hmn hle
  have hmle : m ≤ 65535 := hmn.le.trans hle
  rw [mag32_toNat hmle, mag32_toNat hle, mag64_toNat hmle, mag64_toNat hle]
  exact ⟨mag_lt_mag hle (by decide) (by decide) hmn, mag_lt_mag hle (by decide) (by decide) hmn⟩

end Sys2Proof.Machine

/-! SUPPORT. `CONVERT` and `GATE` (spec/44_convert_gate.md R155 to R158, R167, R169). -/

namespace Sys2Proof.Machine

/-! ## The tenths of a frame (R156, R157) -/

theorem joinBytes_toNat {w : Nat} {hi : BitVec 8} (h : hi.toNat < 2 ^ w) (lo : BitVec 8) :
    ((hi.setWidth (w + 8) <<< 8) ||| lo.setWidth (w + 8)).toNat = 2 ^ 8 * hi.toNat + lo.toNat := by
  have hwide (b : BitVec 8) : (b.setWidth (w + 8)).toNat = b.toNat :=
    BitVec.toNat_setWidth_of_le (by omega)
  have hlt : hi.toNat * 2 ^ 8 < 2 ^ (w + 8) := by rw [Nat.pow_add]; omega
  rw [BitVec.toNat_or, BitVec.toNat_shiftLeft, hwide, hwide, Nat.shiftLeft_eq, Nat.mod_eq_of_lt hlt, Nat.mul_comm,
    Nat.two_pow_add_eq_or_of_lt lo.isLt]

/-- The humidity in tenths is the two bytes joined; the temperature's top bit is its sign, the other 15 its magnitude (R156). -/
theorem tenthsFixed_toNat (hh hl th tl : BitVec 8) :
    (tenthsFixed hh hl th tl).h.toNat = 2 ^ 8 * hh.toNat + hl.toNat
    ∧ (tenthsFixed hh hl th tl).s.toNat = th.toNat / 2 ^ 7 % 2
    ∧ (tenthsFixed hh hl th tl).t.toNat = 2 ^ 8 * (th.toNat % 2 ^ 7) + tl.toNat := by
  have hmag : (th &&& 0x7F).toNat = th.toNat % 2 ^ 7 := Nat.and_two_pow_sub_one_eq_mod th.toNat 7
  refine ⟨joinBytes_toNat (w := 8) hh.isLt hl, Laws.toNat_bits th 7 7, ?_⟩
  rw [← hmag]
  exact joinBytes_toNat (w := 7) (by omega) tl

/-- Ten times the integer bytes; `HL` and the top bit of `TL` count only under their policies (R157, R158). -/
theorem tenthsWhole_toNat (c : Config) (hh hl th tl : BitVec 8) :
    (tenthsWhole c hh hl th tl).h.toNat = 10 * hh.toNat + (if c.dht11HFrac then hl.toNat else 0)
    ∧ (tenthsWhole c hh hl th tl).s.toNat = (if c.dht11TSign then tl.toNat / 2 ^ 7 % 2 else 0)
    ∧ (tenthsWhole c hh hl th tl).t.toNat = 10 * th.toNat := by
  dsimp only [tenthsWhole]
  refine ⟨?humidity, ?sign, by bv_omega⟩
  case humidity => split <;> bv_omega
  case sign =>
    split
    · exact Laws.toNat_bits tl 7 7
    · rfl

theorem frameTenths_of_tenths {s : State} (h : (s.cfg.record s.model).convSel = .tenths) :
    frameTenths s = tenthsFixed (byteHH s.sr) (byteHL s.sr) (byteTH s.sr) (byteTL s.sr) := by
  rw [frameTenths, h, tenths]

theorem frameTenths_of_whole {s : State} (h : (s.cfg.record s.model).convSel = .whole) :
    frameTenths s = tenthsWhole s.cfg (byteHH s.sr) (byteHL s.sr) (byteTH s.sr) (byteTL s.sr) := by
  rw [frameTenths, h, tenths]

/-- The data bytes of the frame as numbers; nothing stands above `HH` (R28). -/
theorem dataBytes_toNat (f : Frame) : (byteHH f).toNat = f.toNat / 2 ^ 32 ∧ (byteHL f).toNat = f.toNat / 2 ^ 24 % 2 ^ 8
    ∧ (byteTH f).toNat = f.toNat / 2 ^ 16 % 2 ^ 8 ∧ (byteTL f).toNat = f.toNat / 2 ^ 8 % 2 ^ 8 :=
  ⟨(Laws.toNat_bits f 39 32).trans (Nat.mod_eq_of_lt (Nat.div_lt_of_lt_mul f.isLt)), Laws.toNat_bits f 31 24,
    Laws.toNat_bits f 23 16, Laws.toNat_bits f 15 8⟩

/-! ## `CONVERT` -/

theorem exec_convert (s : State) : exec .convert s = .next (converted s) := rfl

/-- Settles O26: `CONVERT` goes to `converted`, whose tenths are slices of `SR`. -/
theorem convertTenths : Obligations.ConvertTenths := by
  intro s hsel
  obtain ⟨hHH, hHL, hTH, hTL⟩ := dataBytes_toNat s.sr
  obtain ⟨hh, hs, ht⟩ := tenthsFixed_toNat (byteHH s.sr) (byteHL s.sr) (byteTH s.sr) (byteTL s.sr)
  rw [← frameTenths_of_tenths hsel] at hh hs ht
  rw [hHH, hHL] at hh
  rw [hTH] at hs
  rw [hTH, hTL] at ht
  refine ⟨converted s, exec_convert s, rfl, hh.trans ?_, hs.trans ?_, ht.trans ?_, rfl, rfl⟩ <;> omega

/-- Settles O27: likewise, with tenths of the integer bytes and the two policies. -/
theorem convertWhole : Obligations.ConvertWhole := by
  intro s hsel
  obtain ⟨hHH, hHL, hTH, hTL⟩ := dataBytes_toNat s.sr
  obtain ⟨hh, hs, ht⟩ := tenthsWhole_toNat s.cfg (byteHH s.sr) (byteHL s.sr) (byteTH s.sr) (byteTL s.sr)
  rw [← frameTenths_of_whole hsel] at hh hs ht
  rw [hHH, hHL] at hh
  rw [hTL] at hs
  rw [hTH] at ht
  have hsign : s.sr.toNat / 2 ^ 8 % 2 ^ 8 / 2 ^ 7 % 2 = s.sr.toNat / 2 ^ 15 % 2 := by omega
  exact ⟨converted s, exec_convert s, rfl, hh, hs.trans (by rw [hsign]), ht, rfl, rfl⟩

/-! ## `GATE` -/

/-- Settles O30: `GATE` decides by `H_OK` and `T_OK`, and a failure writes `ATT_RES` and `STATE` alone. -/
theorem gateDecides : Obligations.GateDecides := fun _ =>
  (apply_ite Host.Outcome.next ..).symm.trans (congrArg Host.Outcome.next (if_congr Bool.and_eq_true_iff rfl rfl))

/-- Settles O31: `GATE` on converted values decides by the tenths. -/
theorem gateIsIntegerGate : Obligations.GateIsIntegerGate := by
  intro s hhum htemp
  rw [exec_gate_converted hhum htemp]
  split <;> rfl

end Sys2Proof.Machine

/-! SUPPORT. The retry orchestrator: what `ATT_DONE` decides and `RETRY_DELAY` does, and the pure orchestrator on an attempt's result
(spec/45_retry.md R175, R176, R179). -/

namespace Sys2Proof.Machine

/-! ## `ATT_DONE` (R175) -/

theorem exec_attDone_reading {s : State} (hk : s.attRes = .success) : exec .attDone s = .next (publishReading s) := if_pos hk

theorem exec_attDone_readError {s : State} (hk : s.attRes ≠ .success) (ha : s.attempts = s.cfg.attemptCap) :
    exec .attDone s = .next (publishReadError { s with lastKind := s.attRes }) := (if_neg hk).trans (if_pos ha)

theorem exec_attDone_retry {s : State} (hk : s.attRes ≠ .success) (ha : s.attempts ≠ s.cfg.attemptCap) :
    exec .attDone s = .next { s with lastKind := s.attRes, state := .retryDelay } := (if_neg hk).trans (if_neg ha)

/-- Settles O35: `ATT_DONE` publishes the encoder's words, which are the spec's. -/
theorem attemptDoneDecides : Obligations.AttemptDoneDecides := by
  refine ⟨fun s hk => ?reading, fun s hk ha => ?readError, fun s hk ha => exec_attDone_retry hk ha⟩
  case reading => rw [exec_attDone_reading hk, publishReading, encode_resultReading]
  case readError =>
    rw [exec_attDone_readError hk ha, Laws.readErrorWord_eq]
    rfl

/-! ## The pure orchestrator (R179) -/

section

variable {cap k : Nat} {r : AttRes} {rest : List AttRes}

theorem orchestrate_success (hr : r = .success) : orchestrate cap k (r :: rest) = some (.reading k) := if_pos hr

theorem orchestrate_exhausted (hr : r ≠ .success) (hk : k = cap) : orchestrate cap k (r :: rest) = some (.readError r k) :=
  (if_neg hr).trans (if_pos hk)

theorem orchestrate_retry (hr : r ≠ .success) (hk : k ≠ cap) :
    orchestrate cap k (r :: rest) = orchestrate cap (k + 1) rest := (if_neg hr).trans (if_neg hk)

end

/-- The two results have different words (R75). -/
theorem encode_readError_ne_reading (k : AttRes) (n : BitVec 8) : encode (.resultReadError k n) ≠ 0x80000000 := by
  intro h
  have hd := Laws.decode_result_encode (i := .resultReadError k n) rfl
  rw [h, ← encode_resultReading, Laws.decode_result_encode rfl] at hd
  cases hd

/-- Settles O36, by the three outcomes of `ATT_DONE`; in `IDLE` the word on RESULT tells a reading from an error. -/
theorem orchestratorFollowed : Obligations.OrchestratorFollowed := by
  intro s
  by_cases hk : s.attRes = .success
  · refine ⟨publishReading s, exec_attDone_reading hk, ?_⟩
    rw [orchestrate_success hk]
    exact ⟨⟨fun _ => ⟨rfl, encode_resultReading⟩, fun _ => rfl⟩,
      fun k => ⟨nofun, fun ⟨_, hkr, hne, _⟩ => absurd (hkr.trans hk) hne⟩, ⟨nofun, nofun⟩⟩
  by_cases ha : s.attempts = s.cfg.attemptCap
  · refine ⟨publishReadError { s with lastKind := s.attRes }, exec_attDone_readError hk ha, ?_⟩
    rw [orchestrate_exhausted hk (congrArg BitVec.toNat ha)]
    refine ⟨⟨nofun, fun ⟨_, hword⟩ => absurd hword (encode_readError_ne_reading _ _)⟩, fun k => ⟨?_, ?_⟩, ⟨nofun, nofun⟩⟩
    · rintro ⟨⟩
      exact ⟨rfl, rfl, hk, (Laws.readErrorWord_eq _ _).symm⟩
    · rintro ⟨-, rfl, -, -⟩
      rfl
  · refine ⟨{ s with lastKind := s.attRes, state := .retryDelay }, exec_attDone_retry hk ha, ?_⟩
    rw [orchestrate_retry hk fun he => ha (BitVec.eq_of_toNat_eq he)]
    exact ⟨⟨nofun, nofun⟩, fun k => ⟨nofun, nofun⟩, ⟨fun _ => rfl, fun _ => rfl⟩⟩

/-! ## `RETRY_DELAY` (R176) -/

/-- Settles O10: the issue step puts the word of the delay on CCMD, and the clause on ACK goes to the start of the next attempt. -/
theorem retryDelayIssuesAndRestarts : Obligations.RetryDelayIssuesAndRestarts := by
  refine ⟨fun s hp => ?issue, fun s rest hp hc => ?ack⟩
  case issue =>
    rw [← issueSleepMs_eq]
    exact command_issues hp
  case ack => exact command_acked hp hc

end Sys2Proof.Machine

/-! SUPPORT. The bounds of a read: the steps left fall with every step, and the commands issued and those left together do not grow
(spec/45_retry.md R178). -/

namespace Sys2Proof.Machine

/-! ## The bounds of the current attempt under the two step kinds of a command state (R12) -/

/-- An issue takes one step, and counts its command, but for that of the retry delay, which is counted between the attempts. -/
theorem attemptBounds_issued {s : State} {c : Instr} (h : countInv s = true) (hp : s.pend = false) (hc : commandOf s = some c) :
    stepsLeftInAttempt (issued c s) < stepsLeftInAttempt s
      ∧ (s.state ≠ .retryDelay → commandsLeftInAttempt (issued c s) < commandsLeftInAttempt s) := by
  have hcmd : isCommandState s.state = true := isCommandState_of_commandOf hc
  rw [issued_frame hc]
  cases hq : s.state <;> simp only [hq, isCommandState, Bool.false_eq_true] at hcmd
  case capBitLow | capBitHigh =>
    obtain ⟨-, hbit, -⟩ := countInv_capture h (hq ▸ rfl)
    simp only [stepsLeftInAttempt, commandsLeftInAttempt, hq, hp, if_true, Bool.false_eq_true, if_false]
    omega
  all_goals simp [stepsLeftInAttempt, commandsLeftInAttempt, hq, hp]

/-- While the frame is not full, an attempt that waits for a segment has more steps left than at `ATT_DONE`, which has 4. -/
theorem stepsLeftInAttempt_capture {s : State} (h : countInv s = true) (hq : isCaptureState s.state = true) :
    4 < stepsLeftInAttempt s := by
  obtain ⟨-, hbit, -⟩ := countInv_capture h hq
  cases hs : s.state <;> simp only [hs, isCaptureState, Bool.false_eq_true] at hq <;>
    simp only [stepsLeftInAttempt, hs] <;> split <;> omega

/-- A wait that fails ends the attempt with no command left (R133, R194). -/
theorem attemptBounds_captureTimeout {s : State} (h : countInv s = true) (hq : isCaptureState s.state = true) (u : State) :
    stepsLeftInAttempt (captureTimeout u) < stepsLeftInAttempt s
      ∧ commandsLeftInAttempt (captureTimeout u) ≤ commandsLeftInAttempt s :=
  ⟨stepsLeftInAttempt_capture h hq, Nat.zero_le _⟩

/-- A response takes one step at least, and no command beside the one already issued. -/
theorem attemptBounds_responded {r : Response} {s t : State} (h : countInv s = true) (hp : s.pend = true) (hr : Responded r s t) :
    stepsLeftInAttempt t < stepsLeftInAttempt s ∧ commandsLeftInAttempt t ≤ commandsLeftInAttempt s := by
  cases hr with
  | hsDirOut hq _ ht | hsDriveHigh hq _ ht | hsIdleHold hq _ ht | hsDriveLow hq _ ht | hsLowHold hq _ ht
  | hsRelease hq _ ht | hsSettle hq _ ht | retryDelay hq _ ht | lead _ _ hq _ ht | ackLow _ hq _ ht
  | bitLow _ hq _ ht =>
    simp [ht, stepsLeftInAttempt, commandsLeftInAttempt, hq, hp]
  | ackHigh d hq _ ht =>
    simp only [countInv, hq, decide_eq_true_eq] at h
    obtain ⟨-, -, hb, -⟩ := h
    simp [ht, stepsLeftInAttempt, commandsLeftInAttempt, hq, hp, hb]
  | bitHigh d hq _ ht =>
    simp only [countInv, hq, decide_eq_true_eq] at h
    obtain ⟨-, -, hlt, -⟩ := h
    have hstate : t.state = if s.bitcnt = 39 then .check else .capBitLow := by rw [ht, ← afterBit_succ]; rfl
    have hpend : t.pend = false := by rw [ht]; rfl
    have hbit : t.bitcnt = s.bitcnt + 1 := by rw [ht]; rfl
    by_cases hlast : s.bitcnt = 39
    · rw [if_pos hlast] at hstate
      simp [stepsLeftInAttempt, commandsLeftInAttempt, hq, hp, hstate, hlast]
    · rw [if_neg hlast] at hstate
      simp only [stepsLeftInAttempt, commandsLeftInAttempt, hq, hp, hstate, hpend, hbit, if_true, Bool.false_eq_true, if_false]
      bv_omega
  | wrongLevel l d hq _ ht => exact ht ▸ attemptBounds_captureTimeout h (isCaptureState_of_wrongLevel hq) _
  | timeout hq _ ht => exact ht ▸ attemptBounds_captureTimeout h hq _

/-! ## The steps left -/

/-- A step within the attempt brings the result nearer when it brings the attempt's end nearer. -/
theorem stepsLeft_lt_of_attempt {s t : State} (hq : s.state ≠ .idle) (ha : t.attempts = s.attempts) (hc : t.cfg = s.cfg)
    (h : stepsLeftInAttempt t < stepsLeftInAttempt s) : stepsLeft t < stepsLeft s := by
  rw [stepsLeft, stepsLeft, if_neg hq, ha, hc]
  split <;> omega

/-- Below the cap an attempt is counted without overflow (R34). -/
theorem attempts_startAttempt {s : State} (h : countInv s = true) (hq : s.state = .attStart) :
    s.attempts.toNat < s.cfg.attemptCap.toNat ∧ (startAttempt s).attempts.toNat = s.attempts.toNat + 1 := by
  simp only [countInv, hq, decide_eq_true_eq] at h
  rw [startAttempt_attempts]
  bv_omega

/-- The start of an attempt takes the steps of that attempt from those of the attempts to come. -/
theorem stepsLeft_startAttempt {s : State} (h : countInv s = true) (hq : s.state = .attStart) :
    stepsLeft (startAttempt s) < stepsLeft s := by
  obtain ⟨hlt, hsucc⟩ := attempts_startAttempt h hq
  simp only [stepsLeft, stepsLeftInAttempt, hsucc, startAttempt_state, startAttempt_cfg, hq, reduceCtorEq, if_false]
  omega

/-- Every transition of a running read but waiting brings the result nearer. -/
theorem stepsLeft_lt_of_transition {s t : State} (hcount : countInv s = true) (hbusy : s.state ≠ .idle)
    (hcol : collaboratorReady s = true) (h : Transition s t) : stepsLeft t < stepsLeft s := by
  cases h with
  | idleWait hq | accept _ _ _ _ hq => exact absurd hq hbusy
  | wait _ hp hr =>
    obtain ⟨w, rest, r, hoffer, -⟩ := collaboratorReady_offers hp hcol
    rw [hr] at hoffer
    cases hoffer
  | start hq ht => exact ht ▸ stepsLeft_startAttempt hcount hq
  | issue c hc hp ht =>
    have hlt := (attemptBounds_issued hcount hp hc).1
    have hframe := issued_frame hc
    exact ht ▸ stepsLeft_lt_of_attempt hbusy (by rw [hframe]) (by rw [hframe]) hlt
  | respond w rest r _ hp _ _ hr =>
    have hlt := (attemptBounds_responded (s := { s with crsp := rest }) hcount hp hr).1
    have hframe := responded_frame hr
    exact stepsLeft_lt_of_attempt hbusy (by rw [hframe]) (by rw [hframe]) hlt
  | retry hq _ _ ht =>
    refine ht ▸ stepsLeft_lt_of_attempt hbusy rfl rfl ?_
    simp only [stepsLeftInAttempt, hq]
    omega
  | checkOk hq _ ht | checkFail hq _ ht | convert hq ht | gateOk hq _ _ ht | gateFail hq _ ht | reading hq _ ht
  | readError hq _ _ ht =>
    exact ht ▸ stepsLeft_lt_of_attempt hbusy rfl rfl (by simp [stepsLeftInAttempt, hq])

/-- Settles O53: the collaborator's contract gives a step, which is a transition and no waiting. -/
theorem everyStepBringsTheResultNearer : Obligations.EveryStepBringsTheResultNearer := by
  intro s hwf hcount hpend hbusy hcol
  obtain ⟨t, hst⟩ : ∃ t, step s = .next t := by
    cases hq : isCommandState s.state with
    | true => exact step_command_answers hwf hq hcol
    | false => exact step_internal_answers hwf hbusy hq
  exact ⟨t, hst, stepsLeft_lt_of_transition hcount hbusy hcol (step_cases hst).2⟩

/-! ## The commands left -/

/-- The states between the attempts of a read, and `IDLE`: in the others an attempt is under way. -/
def betweenAttempts : List SeqState := [.idle, .attStart, .retryDelay]

/-- In a command state but the retry delay an attempt is under way. -/
theorem not_mem_betweenAttempts_of_command {q : SeqState} (h : isCommandState q = true) (hne : q ≠ .retryDelay) :
    q ∉ betweenAttempts := by
  revert h hne
  cases q <;> decide

/-- An attempt under way stays so up to `ATT_DONE` (R23). -/
theorem not_mem_betweenAttempts_of_mem_successors {q : SeqState} (hq : q ∉ betweenAttempts) (hne : q ≠ .attDone) :
    ∀ q' ∈ successors q, q' ∉ betweenAttempts := by
  revert hq hne
  cases q <;> decide

/-- While an attempt is under way, each attempt to come has its 90 commands and a retry delay before it. -/
theorem commandsLeft_of_attempt {s : State} (hq : s.state ∉ betweenAttempts) :
    commandsLeft s = (s.cfg.attemptCap.toNat - s.attempts.toNat) * 91 + commandsLeftInAttempt s := by
  unfold commandsLeft
  cases hs : s.state
  case idle | attStart | retryDelay => exact absurd (by decide) (hs ▸ hq)
  all_goals rfl

/-- Within an attempt the bound falls as much as the attempt's does. -/
theorem commandsLeft_within_attempt {s t : State} (hs : s.state ∉ betweenAttempts) (ht : t.state ∉ betweenAttempts)
    (ha : t.attempts = s.attempts) (hc : t.cfg = s.cfg) :
    commandsLeft t + commandsLeftInAttempt s = commandsLeft s + commandsLeftInAttempt t := by
  rw [commandsLeft_of_attempt hs, commandsLeft_of_attempt ht, ha, hc]
  exact Nat.add_right_comm _ _ _

/-- The start of an attempt takes its 90 commands from those of the attempts to come; the delay before the next one is still to come. -/
theorem commandsLeft_startAttempt {s : State} (h : countInv s = true) (hq : s.state = .attStart) :
    commandsLeft (startAttempt s) ≤ commandsLeft s := by
  obtain ⟨hlt, hsucc⟩ := attempts_startAttempt h hq
  simp only [commandsLeft, commandsLeftInAttempt, hsucc, startAttempt_state, startAttempt_cfg, hq]
  omega

/-- A failed attempt below the cap leaves the delay and the attempts to come (R175). -/
theorem commandsLeft_retry {s : State} (h : countInv s = true) (hq : s.state = .attDone) (ha : s.attempts ≠ s.cfg.attemptCap) :
    commandsLeft { s with lastKind := s.attRes, state := .retryDelay } ≤ commandsLeft s := by
  simp only [countInv, hq, decide_eq_true_eq] at h
  obtain ⟨-, hcap, -⟩ := h
  have hne : s.attempts.toNat ≠ s.cfg.attemptCap.toNat := fun he => ha (BitVec.eq_of_toNat_eq he)
  simp only [commandsLeft, hq]
  split <;> omega

/-- The issue of a command takes it from those left: in an attempt from the attempt's, in the retry delay as the delay itself. -/
theorem commandsLeft_issued {s : State} {c : Instr} (h : countInv s = true) (hp : s.pend = false) (hc : commandOf s = some c) :
    commandsLeft (issued c s) < commandsLeft s := by
  have hframe := issued_frame hc
  by_cases hq : s.state = .retryDelay
  · rw [hframe]
    simp [commandsLeft, hq, hp]
  · have hlt := (attemptBounds_issued h hp hc).2 hq
    have hs : s.state ∉ betweenAttempts := not_mem_betweenAttempts_of_command (isCommandState_of_commandOf hc) hq
    have hsum := commandsLeft_within_attempt (t := issued c s) hs (by rwa [hframe]) (by rw [hframe]) (by rw [hframe])
    omega

/-- A response takes the attempt on; after the retry delay it takes none of the commands left. -/
theorem commandsLeft_responded {r : Response} {s t : State} (h : countInv s = true) (hq : isCommandState s.state = true)
    (hp : s.pend = true) (hr : Responded r s t) : commandsLeft t ≤ commandsLeft s := by
  have hframe := responded_frame hr
  have hsucc : t.state ∈ successors s.state := responded_successor hr
  by_cases hdelay : s.state = .retryDelay
  · rw [hdelay] at hsucc
    obtain hstart : t.state = .attStart := List.mem_singleton.1 hsucc
    rw [hframe]
    simp [commandsLeft, hdelay, hstart, hp]
  · have hle := (attemptBounds_responded h hp hr).2
    have hs : s.state ∉ betweenAttempts := not_mem_betweenAttempts_of_command hq hdelay
    have hne : s.state ≠ .attDone := fun he => by rw [he] at hq; cases hq
    have ht : t.state ∉ betweenAttempts := not_mem_betweenAttempts_of_mem_successors hs hne _ hsucc
    have hsum := commandsLeft_within_attempt hs ht (by rw [hframe]) (by rw [hframe])
    omega

/-- Settles O54: an issue takes the command it counts from those left; no other step of a read issues a command, and none lets the bound
grow. -/
theorem commandsBounded : Obligations.CommandsBounded := by
  refine ⟨fun s m p hq hp => ⟨acceptRead m p s, exec_read m hq ((Laws.pinFits_iff s.cfg p).2 hp), rfl⟩, ?_⟩
  intro s t hcount _ hbusy hst
  obtain ⟨-, htr⟩ := step_cases hst
  cases htr with
  | idleWait hq | accept _ _ _ _ hq => exact absurd hq hbusy
  | wait _ _ _ ht => rw [ht]
  | start hq ht => exact ht ▸ Nat.add_le_add_right (commandsLeft_startAttempt hcount hq) _
  | issue c hc hp ht =>
    have hlt := commandsLeft_issued hcount hp hc
    have hlen : (issued c s).ccmd.length = s.ccmd.length + 1 := by
      rw [issued_frame hc]
      exact List.length_append
    rw [ht]
    omega
  | respond w rest r hq hp _ _ hr =>
    have hle := commandsLeft_responded (s := { s with crsp := rest }) hcount hq hp hr
    rw [responded_ccmd hr]
    exact Nat.add_le_add_right hle _
  | checkOk hq _ ht | checkFail hq _ ht | convert hq ht | gateOk hq _ _ ht | gateFail hq _ ht =>
    rw [ht]
    simp [commandsLeft, hq, commandsLeftInAttempt]
  | reading _ _ ht | readError _ _ _ ht => exact ht ▸ Nat.add_le_add_right (Nat.zero_le _) _
  | retry hq _ ha ht => exact ht ▸ Nat.add_le_add_right (commandsLeft_retry hcount hq ha) _

end Sys2Proof.Machine

/-! SUPPORT. The one exception of the machine: in which states an attempt fails, with which kind, and what the failure leaves unchanged
(spec/60_exceptions.md R191 to R194). -/

namespace Sys2Proof.Machine

/-- A response that leads to `ATT_DONE` is one that fails a wait for a segment (R133, R191): of the responses these alone are
`attempt_fail(Timeout)`, and what they write beside is `PEND` and `TRACE`. -/
theorem responded_attDone {r : Response} {s t : State} (h : Responded r s t) (hdone : t.state = .attDone) :
    isCaptureState s.state = true
      ∧ t = { s with attRes := .timeout, state := .attDone, pend := false, trace := t.trace } := by
  cases h with
  | wrongLevel _ _ hq _ ht => exact ⟨isCaptureState_of_wrongLevel hq, ht ▸ rfl⟩
  | timeout hq _ ht => exact ⟨hq, ht ▸ rfl⟩
  | bitHigh _ _ _ ht =>
    subst ht
    rw [shiftBit, afterBit_succ] at hdone
    split at hdone <;> cases hdone
  | _ =>
    subst_vars
    cases hdone

/-- Where an attempt can fail and with which kind: in a wait for a segment, on a response that leaves CRSP; in `CHECK`; in `GATE`. -/
theorem failed_cases {s t : State} (h : Transition s t) (hq : s.state ≠ .attDone) (hdone : t.state = .attDone)
    (hfail : t.attRes ≠ .success) :
    (isCaptureState s.state = true
        ∧ t = { s with attRes := .timeout, state := .attDone, pend := false, trace := t.trace, crsp := t.crsp })
      ∨ (s.state = .check ∧ t = attemptFail .checksumMismatch s)
      ∨ (s.state = .gate ∧ t = attemptFail .implausibleValue s) := by
  cases h with
  | respond _ rest _ _ _ _ _ hr =>
    obtain ⟨hcapture, ht⟩ := responded_attDone hr hdone
    exact .inl ⟨hcapture, ht.trans (by rw [responded_crsp hr])⟩
  | checkFail hcheck _ ht => exact .inr (.inl ⟨hcheck, ht⟩)
  | gateFail hgate _ ht => exact .inr (.inr ⟨hgate, ht⟩)
  | gateOk _ _ _ ht => exact absurd (ht ▸ rfl) hfail
  | idleWait _ _ ht | wait _ _ _ ht => exact absurd (ht ▸ hdone) hq
  | issue c hc _ ht =>
    rw [ht, issued_frame hc] at hdone
    exact absurd hdone hq
  | reading hq' | readError hq' | retry hq' => exact absurd hq' hq
  | accept _ _ _ _ _ _ _ ht | start _ ht | checkOk _ _ ht | convert _ ht =>
    subst ht
    cases hdone

/-- `attempt_fail` with `PEND` clear is the frame of R194 with nothing consumed. -/
theorem attemptFail_frame {s : State} (hp : s.pend = false) (k : AttRes) :
    attemptFail k s = { s with attRes := k, state := .attDone, pend := false } := hp ▸ rfl

/-- Settles O34, by the three places where an attempt fails; their states exclude each other, so each kind names its own. Outside the
capture states `PEND` was clear before. -/
theorem attemptFailChangesNothingElse : Obligations.AttemptFailChangesNothingElse := by
  intro s t hpend hst hq hdone hfail
  obtain ⟨-, htr⟩ := step_cases hst
  obtain ⟨hcapture, ht⟩ | ⟨hcheck, ht⟩ | ⟨hgate, ht⟩ := failed_cases htr hq hdone hfail
  · have hk : t.attRes = .timeout := by rw [ht]
    have hcheck : s.state ≠ .check := fun h => by rw [h] at hcapture; cases hcapture
    have hgate : s.state ≠ .gate := fun h => by rw [h] at hcapture; cases hcapture
    exact ⟨hk ▸ ht, by simp [hk, hcapture], by simp [hk, hcheck], by simp [hk, hgate], by simp [hcapture]⟩
  · rw [attemptFail_frame (not_pend_of_pendInv hpend (hcheck ▸ rfl))] at ht
    subst ht
    simp [hcheck, isCaptureState]
  · rw [attemptFail_frame (not_pend_of_pendInv hpend (hgate ▸ rfl))] at ht
    subst ht
    simp [hgate, isCaptureState]

end Sys2Proof.Machine

/-! SUPPORT. What `IDLE` can do, and so the first step after reset (spec/40_host_interface.md R100, R105,
spec/70_reset_and_hazards.md R215). -/

namespace Sys2Proof.Machine

/-- A host word that decodes is the word of a READ of a `PIN_W`-bit pin number (R71, R100). -/
theorem decodeFor_hcmd_read {c : Config} {w : Word} {m : SensorModel} {p : Pin} (h : decodeFor c .hcmd w = .ok (.read m p)) :
    encode (.read m p) = w ∧ c.pinFits p = true := by
  obtain ⟨hd, hfits⟩ := Laws.decodeFor_ok.1 h
  exact ⟨(Laws.encode_of_decodeHC hd).2, hfits⟩

/-- `IDLE` waits for the host or accepts the READ that is first on HCMD; every other transition belongs to another state. -/
theorem idle_cases {s t : State} (hidle : s.state = .idle) (h : Transition s t) :
    (s.hcmd = [] ∧ t = s)
      ∨ ∃ m p rest, s.hcmd = encode (.read m p) :: rest ∧ exec (.read m p) { s with hcmd := rest } = .next t := by
  cases h with
  | idleWait _ hw ht => exact .inl ⟨hw, ht⟩
  | accept w rest m p _ hw hd ht =>
    obtain ⟨hword, hfits⟩ := decodeFor_hcmd_read hd
    exact .inr ⟨m, p, rest, hword ▸ hw, ht ▸ exec_read m hidle hfits⟩
  | issue c hc => exact absurd hidle (ne_idle_of_isCommandState (isCommandState_of_commandOf hc))
  | wait hq | respond _ _ _ hq => exact absurd hidle (ne_idle_of_isCommandState hq)
  | start hq | checkOk hq | checkFail hq | convert hq | gateOk hq | gateFail hq | reading hq | readError hq | retry hq =>
    rw [hidle] at hq
    cases hq

/-- R42's values, by the definition of the reset state; its line space lists no pin, and an unlisted pin is unknown. -/
theorem resetWith_values (c : Config) :
    (State.resetWith c).state = .idle ∧ (State.resetWith c).pend = false ∧ (State.resetWith c).attempts = 0
      ∧ (State.resetWith c).rs = 0x00000000 ∧ (State.resetWith c).resHum = none ∧ (State.resetWith c).resTemp = none
      ∧ (State.resetWith c).trace = [] ∧ (State.resetWith c).ccmd = [] ∧ (State.resetWith c).cfg = c
      ∧ ∀ p : Pin, (State.resetWith c).line p = { dir := none, out := none } :=
  ⟨rfl, rfl, rfl, rfl, rfl, rfl, rfl, rfl, rfl, fun _ => rfl⟩

/-- Settles O46: the reset state is an `IDLE` state whatever words are offered, and `IDLE` waits or accepts a READ. -/
theorem resetValues : Obligations.ResetValues := by
  refine ⟨rfl, resetWith_values, fun c hc cr t hst => ?_⟩
  obtain ⟨-, htr⟩ := step_cases hst
  obtain ⟨-, hwait⟩ | hread := idle_cases (s := { State.resetWith c with hcmd := hc, crsp := cr }) rfl htr
  · exact .inl hwait
  · exact .inr hread

end Sys2Proof.Machine
